-- ==== Sys2Proof/Word.lean ====
section
/-! DEFINITION. The word types: every number of the spec is an unsigned byte (R11), and the notional command word
has 32 bits (R90). -/

namespace Sys2Proof

/-- A byte: 8 bits, unsigned, bit 0 least significant (R11). Host data, host addresses, chip addresses, frame bytes. -/
abbrev Byte := BitVec 8

/-- The notional 32-bit command word of R90. -/
abbrev Word := BitVec 32

end Sys2Proof
end

