-- ==== Sys2Proof/Syntax.lean ====
section
/-! DEFINITION. The 25 commands of R92, one constructor per row of spec/opcode_table.json. An operand is its byte field
(R91); a field a command does not use is no argument (R91: ignored, whatever its value). -/

namespace Sys2Proof

/-- A command: its mnemonic and the operand bytes its rule uses, in the order A, B, C. -/
inductive Instr
  /-- RREG A = chip address (R110). -/
  | rreg (addr : Byte)
  /-- RREGN A = chip address, B = count (R111). -/
  | rregn (addr n : Byte)
  /-- WREG A = chip address, B = byte (R112). -/
  | wreg (addr v : Byte)
  /-- WREGN A = chip address, B = count (R113). -/
  | wregn (addr n : Byte)
  /-- SETBM A = chip address, B = mask (R114). -/
  | setbm (addr mask : Byte)
  /-- CLRBM A = chip address, B = mask (R115). -/
  | clrbm (addr mask : Byte)
  /-- HRST (R132). -/
  | hrst
  /-- SRST (R133). -/
  | srst
  /-- WAITBOOT (R131). -/
  | waitboot
  /-- ANT B = on (R136). -/
  | ant (on : Byte)
  /-- CHKERR (R135). -/
  | chkerr
  /-- INIT (R137). -/
  | init
  /-- SELFTEST (R138). -/
  | selftest
  /-- FLUSH (R139). -/
  | flush
  /-- COMM A = chip command, B = send length, C = receive capacity (R164). -/
  | comm (cmd len cap : Byte)
  /-- ISPRES (R181). -/
  | ispres
  /-- GETUID (R182). -/
  | getuid
  /-- WAITUID (R184). -/
  | waituid
  /-- SELECT (R186). -/
  | select
  /-- CHKBCC (R189). -/
  | chkbcc
  /-- UIDEQ (R190). -/
  | uideq
  /-- AUTH A = authenticate variant, B = block address (R210). -/
  | auth (variant block : Byte)
  /-- RDBLK B = block address (R212). -/
  | rdblk (block : Byte)
  /-- WRBLK B = block address (R213). -/
  | wrblk (block : Byte)
  /-- CRC B = length (R233). -/
  | crc (n : Byte)
  deriving DecidableEq, Repr

end Sys2Proof
end

