-- ==== Sys2Proof/Decode.lean ====
section
/-! DEFINITION. Decoding and encoding of the command word (30_encoding.md): OP in bits 7:0, A in 15:8, B in 23:16, C in
31:24 (R90). The decoder is total and selects by OP alone (R93); every value outside R92 is illegal (R94). -/

namespace Sys2Proof

/-- Why bytes do not decode. -/
inductive Reject
  /-- The OP byte is no opcode of R92 (R94). -/
  | illegalOpcode (op : Byte)
  /-- Fewer than the four bytes of a command word (R96: every command is one command word). -/
  | truncated
  deriving DecidableEq, Repr

/-- Field OP of a command word (R90). -/
def Word.op (w : Word) : Byte := w.extractLsb' 0 8

/-- Field A of a command word (R90). -/
def Word.fieldA (w : Word) : Byte := w.extractLsb' 8 8

/-- Field B of a command word (R90). -/
def Word.fieldB (w : Word) : Byte := w.extractLsb' 16 8

/-- Field C of a command word (R90). -/
def Word.fieldC (w : Word) : Byte := w.extractLsb' 24 8

/-- The command word with the given fields (R90). -/
def packWord (op a b c : Byte) : Word := c ++ b ++ a ++ op

/-- The command the four fields select (R92, R93). -/
def decodeFields (op a b c : Byte) : Except Reject Instr :=
  match op.toNat with
  | 0x01 => .ok (.rreg a)
  | 0x02 => .ok (.rregn a b)
  | 0x03 => .ok (.wreg a b)
  | 0x04 => .ok (.wregn a b)
  | 0x05 => .ok (.setbm a b)
  | 0x06 => .ok (.clrbm a b)
  | 0x10 => .ok .hrst
  | 0x11 => .ok .srst
  | 0x12 => .ok .waitboot
  | 0x13 => .ok (.ant b)
  | 0x14 => .ok .chkerr
  | 0x15 => .ok .init
  | 0x16 => .ok .selftest
  | 0x17 => .ok .flush
  | 0x20 => .ok (.comm a b c)
  | 0x30 => .ok .ispres
  | 0x31 => .ok .getuid
  | 0x32 => .ok .waituid
  | 0x33 => .ok .select
  | 0x34 => .ok .chkbcc
  | 0x35 => .ok .uideq
  | 0x40 => .ok (.auth a b)
  | 0x41 => .ok (.rdblk b)
  | 0x42 => .ok (.wrblk b)
  | 0x50 => .ok (.crc b)
  | _ => .error (.illegalOpcode op)

/-- Decode a command word. -/
def decode (w : Word) : Except Reject Instr := decodeFields (Word.op w) (Word.fieldA w) (Word.fieldB w) (Word.fieldC w)

/-- Decode the bytes of host addresses 0x00.. in order: a command word is little-endian (R74), and what follows it is
left over. -/
def decodeBytes : List Byte → Except Reject (Instr × List Byte)
  | op :: a :: b :: c :: rest =>
    match decodeFields op a b c with
    | .ok i => .ok (i, rest)
    | .error e => .error e
  | _ => .error .truncated

/-- The opcode of a command (R92). -/
def Instr.opcode : Instr → Byte
  | .rreg _ => 0x01
  | .rregn _ _ => 0x02
  | .wreg _ _ => 0x03
  | .wregn _ _ => 0x04
  | .setbm _ _ => 0x05
  | .clrbm _ _ => 0x06
  | .hrst => 0x10
  | .srst => 0x11
  | .waitboot => 0x12
  | .ant _ => 0x13
  | .chkerr => 0x14
  | .init => 0x15
  | .selftest => 0x16
  | .flush => 0x17
  | .comm _ _ _ => 0x20
  | .ispres => 0x30
  | .getuid => 0x31
  | .waituid => 0x32
  | .select => 0x33
  | .chkbcc => 0x34
  | .uideq => 0x35
  | .auth _ _ => 0x40
  | .rdblk _ => 0x41
  | .wrblk _ => 0x42
  | .crc _ => 0x50

/-- Operand field A of a command; 0 where the command does not use it (R97: an omitted operand is 0). -/
def Instr.operandA : Instr → Byte
  | .rreg a => a
  | .rregn a _ => a
  | .wreg a _ => a
  | .wregn a _ => a
  | .setbm a _ => a
  | .clrbm a _ => a
  | .comm cmd _ _ => cmd
  | .auth v _ => v
  | .hrst | .srst | .waitboot | .ant _ | .chkerr | .init | .selftest | .flush => 0
  | .ispres | .getuid | .waituid | .select | .chkbcc | .uideq | .rdblk _ | .wrblk _ | .crc _ => 0

/-- Operand field B of a command; 0 where the command does not use it. -/
def Instr.operandB : Instr → Byte
  | .rregn _ n => n
  | .wreg _ v => v
  | .wregn _ n => n
  | .setbm _ m => m
  | .clrbm _ m => m
  | .ant on => on
  | .comm _ n _ => n
  | .auth _ block => block
  | .rdblk block => block
  | .wrblk block => block
  | .crc n => n
  | .rreg _ | .hrst | .srst | .waitboot | .chkerr | .init | .selftest | .flush => 0
  | .ispres | .getuid | .waituid | .select | .chkbcc | .uideq => 0

/-- Operand field C of a command; 0 where the command does not use it. -/
def Instr.operandC : Instr → Byte
  | .comm _ _ cap => cap
  | .rreg _ | .rregn _ _ | .wreg _ _ | .wregn _ _ | .setbm _ _ | .clrbm _ _ => 0
  | .hrst | .srst | .waitboot | .ant _ | .chkerr | .init | .selftest | .flush => 0
  | .ispres | .getuid | .waituid | .select | .chkbcc | .uideq => 0
  | .auth _ _ | .rdblk _ | .wrblk _ | .crc _ => 0

/-- The command word of a command (R90, R92). -/
def encode (i : Instr) : Word := packWord i.opcode i.operandA i.operandB i.operandC

/-- The four bytes of a word as the host port holds them, OP first (R74). -/
def wordBytes (w : Word) : List Byte := [Word.op w, Word.fieldA w, Word.fieldB w, Word.fieldC w]

/-- The command word of an opcode-table row's bits: bit 0 is bit 0 of OP, and bits at `nbits` and above are 0. -/
def tableWord (nbits w : Nat) : Word := BitVec.ofNat 32 (w % 2 ^ nbits)

/-- The command this decoder reads from an instruction whose bits are `w`, numbered as spec/opcode_table.json numbers
them. -/
def decodeTableWord (nbits w : Nat) : Option Instr :=
  match decodeBytes (wordBytes (tableWord nbits w)) with
  | .ok (i, _) => some i
  | .error _ => none

end Sys2Proof
end

