-- ==== Sys2Proof/Config.lean ====
section
/-! DEFINITION. What an implementation fixes: the named parameters of R9, which the model takes as a configuration
argument, and the free values the spec leaves open (opaque constants: no proof can see what they are). -/

namespace Sys2Proof

/-- One event of the bus history (R66): `r a v` is a BusRead of chip address `a` that returned `v`, `w a v` a BusWrite
of `v` to `a`, `p l` an RstPin to level `l`. -/
inductive BusEvent
  | r (a v : Byte)
  | w (a v : Byte)
  | p (l : Bool)
  deriving DecidableEq, Repr

/-- The named parameters of R9. A proof about the sequencer holds for every value of them unless it names one.
Chip command codes have 4 bits (R9); a register address outside 0x00..0x3F is ill-formed (R76) and refused. -/
structure Config where
  /-- REG_COMMAND: "the command register". -/
  regCommand : Byte
  /-- REG_COMIRQ: "the interrupt-request register". -/
  regComIrq : Byte
  /-- REG_DIVIRQ: holds the "CRC-IRQ interrupt bit". -/
  regDivIrq : Byte
  /-- REG_ERROR: "the error register". -/
  regError : Byte
  /-- REG_AUTHSTATUS: holds the "authenticated state" bit (90_conflicts.md C4). -/
  regAuthStatus : Byte
  /-- REG_FIFODATA: the FIFO data port. -/
  regFifoData : Byte
  /-- REG_FIFOLEVEL: "the FIFO level register"; also holds the flush bit. -/
  regFifoLevel : Byte
  /-- REG_BITFRAMING: the bit framing and the "start send" bit. -/
  regBitFraming : Byte
  /-- REG_TXCONTROL: "the antenna-driver enable bits". -/
  regTxControl : Byte
  /-- REG_CRCRESULT_H: CRC result, high. -/
  regCrcResultH : Byte
  /-- REG_CRCRESULT_L: CRC result, low. -/
  regCrcResultL : Byte
  /-- REG_AUTOTEST: the self-test control register. -/
  regAutoTest : Byte
  /-- CMD_IDLE. -/
  cmdIdle : BitVec 4
  /-- CMD_MEM: stores 25 bytes into the chip's internal buffer. -/
  cmdMem : BitVec 4
  /-- CMD_GENRANDOMID: named in R9; no operation of the spec uses it. -/
  cmdGenRandomId : BitVec 4
  /-- CMD_CALCCRC. -/
  cmdCalcCrc : BitVec 4
  /-- CMD_TRANSCEIVE. -/
  cmdTransceive : BitVec 4
  /-- CMD_MFAUTHENT. -/
  cmdMfAuthent : BitVec 4
  /-- CMD_SOFTRESET. -/
  cmdSoftReset : BitVec 4
  /-- M_POWERDOWN in REG_COMMAND. -/
  mPowerDown : Byte
  /-- M_FLUSH in REG_FIFOLEVEL. -/
  mFlush : Byte
  /-- M_LEVEL, the byte count field of REG_FIFOLEVEL. -/
  mLevel : Byte
  /-- M_STARTSEND in REG_BITFRAMING. -/
  mStartSend : Byte
  /-- FRAMING_REQ, "a 7-bit final byte". -/
  framingReq : Byte
  /-- FRAMING_FULL, whole-byte frames. -/
  framingFull : Byte
  /-- IRQ_CLEAR_ALL for REG_COMIRQ. -/
  irqClearAll : Byte
  /-- M_TIMERIRQ in REG_COMIRQ. -/
  mTimerIrq : Byte
  /-- M_ERRIRQ in REG_COMIRQ. -/
  mErrIrq : Byte
  /-- M_IDLEIRQ in REG_COMIRQ. -/
  mIdleIrq : Byte
  /-- M_RXIRQ in REG_COMIRQ. -/
  mRxIrq : Byte
  /-- DIVIRQ_CLEAR_CRC for REG_DIVIRQ. -/
  divIrqClearCrc : Byte
  /-- M_CRCIRQ in REG_DIVIRQ. -/
  mCrcIrq : Byte
  /-- M_ANTENNA in REG_TXCONTROL. -/
  mAntenna : Byte
  /-- E_PROTOCOL in REG_ERROR. -/
  eProtocol : Byte
  /-- E_PARITY in REG_ERROR. -/
  eParity : Byte
  /-- E_CRC in REG_ERROR. -/
  eCrc : Byte
  /-- E_COLL in REG_ERROR. -/
  eColl : Byte
  /-- E_BUFOVFL in REG_ERROR. -/
  eBufOvfl : Byte
  /-- E_TEMP in REG_ERROR. -/
  eTemp : Byte
  /-- M_CRYPTO1ON in REG_AUTHSTATUS. -/
  mCrypto1On : Byte
  /-- AUTOTEST_ON for REG_AUTOTEST. -/
  autoTestOn : Byte
  /-- AUTOTEST_OFF for REG_AUTOTEST. -/
  autoTestOff : Byte
  /-- PICC_REQ: REQA or WUPA. -/
  piccReq : Byte
  /-- ATQA_LEN, in bytes. -/
  atqaLen : Nat
  /-- SEL_CL1. -/
  selCl1 : Byte
  /-- NVB_ANTICOLL. -/
  nvbAnticoll : Byte
  /-- NVB_SELECT. -/
  nvbSelect : Byte
  /-- SAK_LEN, in bytes. -/
  sakLen : Nat
  /-- AUTH_KEY_A. -/
  authKeyA : Byte
  /-- AUTH_KEY_B. -/
  authKeyB : Byte
  /-- MF_READ. -/
  mfRead : Byte
  /-- MF_WRITE. -/
  mfWrite : Byte
  /-- MF_ACK, "4-bit acknowledge value": 4 bits wide. DEDUCED from R9's words, log entry 12. -/
  mfAck : BitVec 4
  /-- READ_RESP_LEN, in bytes. -/
  readRespLen : Nat
  /-- INIT_SEQ: (address, value) writes, in order; which addresses it names is left open (log entry 27). -/
  initSeq : List (Byte × Byte)
  /-- SELFTEST_ZEROS: zero bytes written before the self-test; at most 63 in a legal configuration (R77). DEDUCED, log
  entry 24. -/
  selftestZeros : Nat
  /-- REF_V1, 64 bytes, OPEN. -/
  refV1 : Vector Byte 64
  /-- REF_V2, 64 bytes, OPEN. -/
  refV2 : Vector Byte 64
  /-- POLL_MAX, an integer at least 1, OPEN. -/
  pollMax : Nat
  /-- CRC_POLL_MAX, an integer at least 1, OPEN. -/
  crcPollMax : Nat
  /-- SELFTEST_POLL_MAX, an integer at least 1, OPEN. -/
  selftestPollMax : Nat
  /-- BOOT_POLL_MAX; `none` is ∞, the default. -/
  bootPollMax : Option Nat
  /-- T_RST_PULSE, OPEN; timing only, no rule reads it (R10). -/
  tRstPulse : Nat
  /-- T_POLL, OPEN; timing only, no rule reads it (R10). -/
  tPoll : Nat
  /-- T_RETRY, OPEN; timing only, no rule reads it (R10). -/
  tRetry : Nat
  deriving DecidableEq, Repr

/-! Free values. -/

/-- The environment's answer to a BusRead (R67): "an oracle that may see the whole history", after the scripted answers
of `State.answers` are used up. Arguments: the reset epoch, the bus history before the read, the chip address read. -/
opaque Config.environmentAnswer : Nat → List BusEvent → Byte → Byte

/-- A buffer byte after reset (R281, 93 U1): "a draw per byte". Arguments: the reset epoch, the host address. -/
opaque Config.powerOnByte : Nat → Nat → Byte

/-- OPEN POLL_MAX of R9, less one (so that it is at least 1). -/
opaque Config.openPollMaxPred : Nat

/-- OPEN CRC_POLL_MAX of R9, less one. -/
opaque Config.openCrcPollMaxPred : Nat

/-- OPEN SELFTEST_POLL_MAX of R9, less one. -/
opaque Config.openSelftestPollMaxPred : Nat

/-- OPEN REF_V1 of R9, byte by byte. -/
opaque Config.openRefV1 : Nat → Byte

/-- OPEN REF_V2 of R9, byte by byte. -/
opaque Config.openRefV2 : Nat → Byte

/-- OPEN T_RST_PULSE of R9 (timing only). -/
opaque Config.openRstPulse : Nat

/-- OPEN T_POLL of R9 (timing only). -/
opaque Config.openPollDelay : Nat

/-- OPEN T_RETRY of R9 (timing only). -/
opaque Config.openRetryDelay : Nat

end Sys2Proof
end

