-- ==== Sys2Proof/Machine/Operands.lean ====
section
/-! DEFINITION. The operand limits of R251 (the "limits" column of R92), one check each, and the reading of a length
operand. An operand is an unsigned byte (R91). -/

namespace Sys2Proof.Machine

/-- A chip address operand: A ≤ 0x3F (R76, R251). -/
def isChipAddr (a : Byte) : Bool := decide (a.toNat ≤ 0x3F)

/-- A length or capacity operand: at most 64, the FIFO's size (R251). -/
def isLength (n : Byte) : Bool := decide (n.toNat ≤ 64)

/-- A chip command operand: A ≤ 0x0F, the 4-bit chip command field (R251). -/
def isChipCommand (a : Byte) : Bool := decide (a.toNat ≤ 0x0F)

/-- The antenna operand: B ≤ 1 (R251). -/
def isOnOff (b : Byte) : Bool := decide (b.toNat ≤ 1)

/-- The authenticate variant: AUTH_KEY_A or AUTH_KEY_B (R251). -/
def isAuthVariant (cfg : Config) (a : Byte) : Bool := a == cfg.authKeyA || a == cfg.authKeyB

/-- The 4-bit chip command of an operand within its limit (R164). -/
def chipCommand (a : Byte) : BitVec 4 := a.setWidth 4

/-- A 4-bit chip command as the byte written to REG_COMMAND: zero-extended (R9, R11). -/
def commandByte (c : BitVec 4) : Byte := c.setWidth 8

end Sys2Proof.Machine
end

