-- ==== Sys2Proof/Machine/Parameters.lean ====
section
/-! DEFINITION. The default instantiation of the parameters (R9, for an MFRC522 with a MIFARE Classic card) and the
check that refuses an ill-formed configuration (R76). -/

namespace Sys2Proof.Machine

/-- The "default" column of R9. The OPEN parameters have no default: they are opaque constants. -/
def defaultConfig : Config where
  regCommand := 0x01
  regComIrq := 0x04
  regDivIrq := 0x05
  regError := 0x06
  regAuthStatus := 0x08
  regFifoData := 0x09
  regFifoLevel := 0x0A
  regBitFraming := 0x0D
  regTxControl := 0x14
  regCrcResultH := 0x21
  regCrcResultL := 0x22
  regAutoTest := 0x36
  cmdIdle := 0x0
  cmdMem := 0x1
  cmdGenRandomId := 0x2
  cmdCalcCrc := 0x3
  cmdTransceive := 0xC
  cmdMfAuthent := 0xE
  cmdSoftReset := 0xF
  mPowerDown := 0x10
  mFlush := 0x80
  mLevel := 0x7F
  mStartSend := 0x80
  framingReq := 0x07
  framingFull := 0x00
  irqClearAll := 0x7F
  mTimerIrq := 0x01
  mErrIrq := 0x02
  mIdleIrq := 0x10
  mRxIrq := 0x20
  divIrqClearCrc := 0x04
  mCrcIrq := 0x04
  mAntenna := 0x03
  eProtocol := 0x01
  eParity := 0x02
  eCrc := 0x04
  eColl := 0x08
  eBufOvfl := 0x10
  eTemp := 0x40
  mCrypto1On := 0x08
  autoTestOn := 0x09
  autoTestOff := 0x00
  piccReq := 0x26
  atqaLen := 2
  selCl1 := 0x93
  nvbAnticoll := 0x20
  nvbSelect := 0x70
  sakLen := 3
  authKeyA := 0x60
  authKeyB := 0x61
  mfRead := 0x30
  mfWrite := 0xA0
  mfAck := 0xA
  readRespLen := 18
  initSeq := [(0x2A, 0x80), (0x2B, 0xA9), (0x2C, 0x03), (0x2D, 0xE8), (0x15, 0x40), (0x11, 0x3D)]
  selftestZeros := 25
  refV1 := Vector.ofFn fun i => Config.openRefV1 i.val
  refV2 := Vector.ofFn fun i => Config.openRefV2 i.val
  pollMax := Config.openPollMaxPred + 1
  crcPollMax := Config.openCrcPollMaxPred + 1
  selftestPollMax := Config.openSelftestPollMaxPred + 1
  bootPollMax := none
  tRstPulse := Config.openRstPulse
  tPoll := Config.openPollDelay
  tRetry := Config.openRetryDelay

/-- The register parameters of R9, in the order of its table. -/
def registerParameters (cfg : Config) : List Byte :=
  [cfg.regCommand, cfg.regComIrq, cfg.regDivIrq, cfg.regError, cfg.regAuthStatus, cfg.regFifoData, cfg.regFifoLevel,
    cfg.regBitFraming, cfg.regTxControl, cfg.regCrcResultH, cfg.regCrcResultL, cfg.regAutoTest]

/-- A legal configuration: every register parameter, and every address INIT_SEQ writes, in 0x00..0x3F (R76), the three
bounded polls at least 1 (R9), and SELFTEST's FIFO writes between flushes, SELFTEST_ZEROS and one more, at most 64 (R77).
DEDUCED for all but the register parameters (log entries 10 and 24). Parameters may coincide, and INIT_SEQ may write
REG_FIFODATA, unflushed and any number of times: a DESIGN CHOICE (log entry 27). -/
def configOk (cfg : Config) : Bool :=
  (registerParameters cfg).all isChipAddr && cfg.initSeq.all (fun e => isChipAddr e.1)
    && cfg.pollMax != 0 && cfg.crcPollMax != 0 && cfg.selftestPollMax != 0 && decide (cfg.selftestZeros + 1 ≤ 64)

end Sys2Proof.Machine
end

