-- ==== Sys2Proof/Machine/State.lean ====
section
/-! DEFINITION. The state of the sequencer as plain data (R20): host-visible registers and buffers, sequencer position,
RST_N and bus history; beside it the model's own fields (configuration, whose turn is next, the environment's scripted
answers, what host reads returned, the reset epoch); and the state right after reset (R281). -/

namespace Sys2Proof.Machine

/-- The eleven status codes (R24). The reserved codes 11..15 cannot be held (93 U5). -/
inductive Status
  | ok
  | protocolError
  | parityError
  | crcError
  | collisionError
  | bufferOverflow
  | tempError
  | writeError
  | timeOut
  | bccError
  | generalStatusError
  deriving DecidableEq, Repr

/-- The discovery states (R26). `halted` is named by the spec and entered by no command (R28). -/
inductive PState
  | idle
  | requested
  | uidPending
  | uidAcquired
  | selected
  | authenticated
  | halted
  deriving DecidableEq, Repr

/-- The host-port exceptions: IllegalOpcode (R250), BadOperand (R251), CmdWhileBusy (R252). -/
inductive Cause
  | illegalOpcode
  | badOperand
  | cmdWhileBusy
  deriving DecidableEq, Repr

/-! The sequencer position (R34): which chip-port primitive comes next, and what the command's pseudocode does after it.
A position names the procedure's caller where a procedure returns. -/

/-- A chip-port primitive without an answer (R13): BusWrite or RstPin. -/
inductive Out
  | write (a v : Byte)
  | pin (l : Bool)
  deriving DecidableEq, Repr

/-- Who called waitForBootUp (R130). -/
inductive BootCaller
  /-- WAITBOOT, HRST or SRST: `finish(s, s = Ok)` follows. -/
  | plain
  /-- INIT (R137). -/
  | init
  /-- SELFTEST (R138). -/
  | selftest
  deriving DecidableEq, Repr

/-- Who called communicate (R160). -/
inductive CommCaller
  /-- COMM (R164). -/
  | comm
  /-- ISPRES (R181). -/
  | ispres
  /-- GETUID (R182). -/
  | getuid
  /-- WAITUID in its ISPRES body (R184). -/
  | waitPresent
  /-- WAITUID in its GETUID body (R184). -/
  | waitUid
  /-- SELECT (R186). -/
  | select
  /-- AUTH (R210). -/
  | auth
  /-- RDBLK through sendWithCRC (R211, R212). -/
  | rdblk
  /-- WRBLK, the command frame (R213). -/
  | wrblkCommand
  /-- WRBLK, the data frame (R213). -/
  | wrblkData
  deriving DecidableEq, Repr

/-- Who called verifyCRC (R234). -/
inductive VerifyCaller
  /-- SELECT, verifyCRC(1) (R186). -/
  | select
  /-- RDBLK, verifyCRC(16) (R212). -/
  | rdblk
  deriving DecidableEq, Repr

/-- Who called calculateCRC (R230). -/
inductive CrcCaller
  /-- CRC (R233). -/
  | crc
  /-- A frame to be sent with its CRC (R185, R211), and who then called communicate. -/
  | send (body : List Byte) (caller : CommCaller)
  /-- verifyCRC(k) (R234). -/
  | verify (k : Nat) (caller : VerifyCaller)
  deriving DecidableEq, Repr

/-- Who called checkError (R134). -/
inductive ErrorCaller
  /-- CHKERR (R135). -/
  | chkerr
  /-- communicate, step 6 (R163). -/
  | communicate (cap : Nat) (caller : CommCaller)
  deriving DecidableEq, Repr

/-- What a bulk read (R69) is for. -/
inductive BulkCaller
  /-- RREGN (R111). -/
  | rregn
  /-- communicate, step 7, with the status checkError gave (R160). -/
  | communicate (status : Status) (caller : CommCaller)
  /-- SELFTEST's capture (R138). -/
  | selftest
  deriving DecidableEq, Repr

/-- What follows the last of a row of outputs. -/
inductive After
  /-- `finish(Ok, 1)`. -/
  | done
  /-- SELFTEST's `finish(TimeOut, 0)` (R138). -/
  | fillTimeOut
  /-- ANT 0: PSTATE <- Idle, then `finish(Ok, 1)` (R136). -/
  | antennaOff
  /-- The first poll of waitForBootUp (R130). -/
  | pollBoot (caller : BootCaller)
  /-- communicate with the frame `tx`, after the framing write of a card command (R181, R182, R211). -/
  | exchange (cmd : BitVec 4) (tx : List Byte) (cap : Nat) (caller : CommCaller)
  /-- communicate, step 3: set M_STARTSEND (R160). -/
  | startSend (cmd : BitVec 4) (cap : Nat) (caller : CommCaller)
  /-- communicate, step 4: the first poll of REG_COMIRQ (R160). -/
  | pollCom (cmd : BitVec 4) (cap : Nat) (caller : CommCaller)
  /-- calculateCRC: the first poll of REG_DIVIRQ (R230). -/
  | pollCrc (caller : CrcCaller)
  /-- SELFTEST: the first poll of the FIFO level (R138). -/
  | pollFill
  /-- SELFTEST: read the 64 bytes back (R138). -/
  | capture
  /-- SELFTEST: store and compare the captured bytes (R138). -/
  | judge (xs : List Byte)
  deriving DecidableEq, Repr

/-- What the answer of a BusRead is used for; `k` counts the polls already made without success. -/
inductive Await
  /-- RREG: RXBUF[0] (R110). -/
  | rreg
  /-- A bulk read of chip register `a` (R69): `got` are the bytes so far, `left` reads follow this one. -/
  | bulk (a : Byte) (left : Nat) (got : List Byte) (caller : BulkCaller)
  /-- SetBitMask(a, m) (R13), then the outputs `rest`. -/
  | setBits (a m : Byte) (rest : List Out) (next : After)
  /-- ClearBitMask(a, m) (R13). -/
  | clearBits (a m : Byte) (next : After)
  /-- waitForBootUp's poll (R130). -/
  | boot (k : Nat) (caller : BootCaller)
  /-- checkError's read (R134). -/
  | error (caller : ErrorCaller)
  /-- communicate's poll (R162). -/
  | comIrq (k : Nat) (cmd : BitVec 4) (cap : Nat) (caller : CommCaller)
  /-- communicate's FIFO level read (R160). -/
  | level (cap : Nat) (status : Status) (caller : CommCaller)
  /-- calculateCRC's poll (R230). -/
  | divIrq (k : Nat) (caller : CrcCaller)
  /-- calculateCRC's read of REG_CRCRESULT_H (R230). -/
  | crcHigh (caller : CrcCaller)
  /-- calculateCRC's read of REG_CRCRESULT_L, the high byte read (R230). -/
  | crcLow (hi : Byte) (caller : CrcCaller)
  /-- SELFTEST's fill poll (R138). -/
  | fill (k : Nat)
  /-- AUTH's read of REG_AUTHSTATUS (R210). -/
  | authStatus
  deriving DecidableEq, Repr

/-- The sequencer position (R34). -/
inductive Pos
  /-- No command runs: BUSY = 0. -/
  | idle
  /-- The next primitive is the output `o`; `rest` and then `next` follow. -/
  | output (o : Out) (rest : List Out) (next : After)
  /-- The next primitive is BusRead(a); `k` uses its answer. -/
  | input (a : Byte) (k : Await)
  deriving DecidableEq, Repr

/-- One turn of a run (R18, R70): a host-port access, an assertion of the reset input (R280), or one sequencer step. -/
inductive Turn
  | hostRead (a : Byte)
  | hostWrite (a v : Byte)
  | reset
  | sequencer
  deriving DecidableEq, Repr

/-- The state. The first group is the hardware's (R20), the second the model's own. -/
structure State where
  /-- OP, host address 0x00 (R21). -/
  op : Byte
  /-- ARG_A, host address 0x01 (R21). -/
  argA : Byte
  /-- ARG_B, host address 0x02 (R21). -/
  argB : Byte
  /-- ARG_C, host address 0x03 (R21). -/
  argC : Byte
  /-- STATUS.RESULT (R22, R23). STATUS.BUSY is `State.busy`. -/
  result : Bool
  /-- CODE, host address 0x05 (R24). -/
  code : Status
  /-- PSTATE, host address 0x06 (R25). -/
  pstate : PState
  /-- RXLEN, host address 0x07 (R29). -/
  rxlen : Nat
  /-- EXC, host address 0x08 (R32); `none` is 0x00. -/
  exc : Option Cause
  /-- TXBUF, host addresses 0x40–0x7F (R33). -/
  txbuf : Vector Byte 64
  /-- RXBUF, host addresses 0x80–0xBF (R33). -/
  rxbuf : Vector Byte 64
  /-- UID, host addresses 0xC0–0xC4 (R33). -/
  uid : Vector Byte 5
  /-- CMPUID, host addresses 0xC8–0xCB (R33). -/
  cmpuid : Vector Byte 4
  /-- KEY, host addresses 0xD0–0xD5 (R33). -/
  key : Vector Byte 6
  /-- CRCRES, host addresses 0xD8–0xD9 (R33). -/
  crcres : Vector Byte 2
  /-- The sequencer position (R34). -/
  pos : Pos
  /-- RST_N (R35). -/
  rstN : Bool
  /-- The bus history, oldest event first (R66). -/
  history : List BusEvent
  /-- The named parameters (R9); no step changes them. -/
  cfg : Config
  /-- The turns to come; with none, the sequencer steps. -/
  schedule : List Turn
  /-- The environment's next answers (R67); with none, `Config.environmentAnswer` answers. -/
  answers : List Byte
  /-- The address and value of each host read so far, oldest first (R61). -/
  hostReads : List (Byte × Byte)
  /-- How many sequencer resets there have been (R280). -/
  epoch : Nat
  deriving DecidableEq, Repr

/-- Why the machine stops with a fault: never. The spec has no fatal condition (60_exceptions.md: "Nothing in this core
is fatal"; R66: a transaction "cannot fail"), so the type has no constructor. -/
inductive Fault
  deriving DecidableEq, Repr

/-- Why a step is refused. -/
inductive Refusal
  /-- An instruction with no meaning yet, rejected by name in exec's arm. Safe. Raised by no arm of this model. -/
  | notModelled (mnemonic : String)
  /-- `step` refuses a configuration that R76 calls ill-formed ("the model refuses it"), and those of log entry 10. Safe: nothing is claimed of
  such a machine. -/
  | illFormedConfig
  deriving DecidableEq, Repr

/-- STATUS.BUSY (R22): 1 from the acceptance of a command until its `finish`, that is, while the position is not idle. -/
def State.busy (s : State) : Bool := decide (s.pos ≠ .idle)

/-- A buffer after reset: one draw per byte (R281, 93 U1), by epoch and host address. -/
def drawnBuffer (n epoch base : Nat) : Vector Byte n := Vector.ofFn fun i => Config.powerOnByte epoch (base + i.val)

/-- The machine right after reset (R281), with the default parameters (R9), no turn scheduled and no answer scripted. -/
def State.reset : State where
  op := 0x00
  argA := 0x00
  argB := 0x00
  argC := 0x00
  result := false
  code := .ok
  pstate := .idle
  rxlen := 0
  exc := none
  txbuf := drawnBuffer 64 0 0x40
  rxbuf := drawnBuffer 64 0 0x80
  uid := drawnBuffer 5 0 0xC0
  cmpuid := drawnBuffer 4 0 0xC8
  key := drawnBuffer 6 0 0xD0
  crcres := drawnBuffer 2 0 0xD8
  pos := .idle
  rstN := true
  history := []
  cfg := defaultConfig
  schedule := []
  answers := []
  hostReads := []
  epoch := 0

end Sys2Proof.Machine
end

