-- ==== Sys2Proof/Machine/Flags.lean ====
section
/-! DEFINITION. Status and flag computations: the codes the host reads (R22, R24, R25, R32), the RESULT convention
(R23), checkError's priority (R134), the completion bits of a poll (R161), and the block check character (R188). -/

namespace Sys2Proof.Machine

/-- Some bit of mask `m` is set in `v` (R11: `v & m ≠ 0`). -/
def anyBit (v m : Byte) : Bool := v &&& m != 0

/-- The numeric status codes (R24). -/
def statusByte : Status → Byte
  | .ok => 0
  | .protocolError => 1
  | .parityError => 2
  | .crcError => 3
  | .collisionError => 4
  | .bufferOverflow => 5
  | .tempError => 6
  | .writeError => 7
  | .timeOut => 8
  | .bccError => 9
  | .generalStatusError => 10

/-- The encoding of the discovery states (R26). -/
def pstateByte : PState → Byte
  | .idle => 0
  | .requested => 1
  | .uidPending => 2
  | .uidAcquired => 3
  | .selected => 4
  | .authenticated => 5
  | .halted => 6

/-- The cause codes (R250, R251, R252); no exception recorded reads as 0 (R32). -/
def excByte : Option Cause → Byte
  | none => 0
  | some .illegalOpcode => 1
  | some .badOperand => 2
  | some .cmdWhileBusy => 3

/-- STATUS as the host reads it (R22): BUSY in bit 0, RESULT in bit 1, bits 7:2 read as 0. -/
def statusRegister (s : State) : Byte := (if s.busy then 0x01 else 0x00) ||| (if s.result then 0x02 else 0x00)

/-- `s = Ok`: RESULT of the commands without a boolean of their own (R23). -/
def isOk (c : Status) : Bool := decide (c = .ok)

/-- checkError's map of REG_ERROR (R134): buffer overflow > CRC > parity > protocol > collision > temperature > Ok. -/
def errorStatus (cfg : Config) (e : Byte) : Status :=
  if anyBit e cfg.eBufOvfl then .bufferOverflow
  else if anyBit e cfg.eCrc then .crcError
  else if anyBit e cfg.eParity then .parityError
  else if anyBit e cfg.eProtocol then .protocolError
  else if anyBit e cfg.eColl then .collisionError
  else if anyBit e cfg.eTemp then .tempError
  else .ok

/-- DONE_MASK(cmd) (R161). -/
def doneMask (cfg : Config) (cmd : BitVec 4) : Byte :=
  if cmd = cfg.cmdTransceive then cfg.mRxIrq ||| cfg.mIdleIrq else cfg.mIdleIrq

/-- The block check character of four bytes (R188). -/
def bcc (u0 u1 u2 u3 : Byte) : Byte := u0 ^^^ u1 ^^^ u2 ^^^ u3

/-- The block check character of UID[0..3] (R185, R188). -/
def bccOf (uid : Vector Byte 5) : Byte := bcc uid[0] uid[1] uid[2] uid[3]

/-- UID[0..4] is valid (R188): its fifth byte is the block check character of the first four. -/
def uidValid (uid : Vector Byte 5) : Bool := uid[4] == bccOf uid

/-- WRBLK's `ack()` (R213): one byte received, whose low nibble is the 4-bit MF_ACK (R9). -/
def isAck (s : State) : Bool := s.rxlen == 1 && s.rxbuf[0] &&& 0x0F == s.cfg.mfAck.setWidth 8

end Sys2Proof.Machine
end

