-- ==== Sys2Proof/Machine/Ops.lean ====
section
/-! DEFINITION. The shared operations: raising a host-port exception (R253) and clearing its record (R254), issuing a
command (R30, R255), ending one (R14, R30), the chip-port primitives (R13, R66), the buffers' bulk store, and the
sequencer reset (R280). -/

namespace Sys2Proof.Machine

/-- The outcome of one step or one meaning. -/
abbrev Result := Host.Outcome State Fault Refusal

/-! Host-port exceptions. -/

/-- Exception entry (R253): the first cause since the last clear is kept; nothing else changes. There is no vector, no
handler, no mode and no saved register. -/
def raiseException (c : Cause) (s : State) : State :=
  match s.exc with
  | none => { s with exc := some c }
  | some _ => s

/-- What takes the place of an exception return (R254, R32): the record is cleared. -/
def clearException (s : State) : State := { s with exc := none }

/-! The life of a command. -/

/-- Issue a command (R30, R255): while BUSY = 1 the OP write is dropped with CmdWhileBusy; an operand outside its limits
raises BadOperand; otherwise the command is accepted and `start` runs its pseudocode up to its first primitive. -/
def issue (opcode : Byte) (operandsOk : Bool) (start : State → State) (s : State) : Result :=
  if s.busy then .next (raiseException .cmdWhileBusy s)
  else if operandsOk then .next (start { s with op := opcode })
  else .next (raiseException .badOperand s)

/-- `finish(code, result)` (R14, R30). -/
def finish (c : Status) (r : Bool) (s : State) : State := { s with code := c, result := r, pos := .idle }

/-- `H.PSTATE <- p` (R27). -/
def setPState (p : PState) (s : State) : State := { s with pstate := p }

/-- A failed card command (R186, R212, R213): `H.PSTATE <- Idle ; finish(s, 0)`. -/
def failCard (c : Status) (s : State) : State := finish c false (setPState .idle s)

/-! The chip port. -/

/-- The next primitive is the output `o`, then `rest`, then `next`. -/
def toOutput (o : Out) (rest : List Out) (next : After) (s : State) : State := { s with pos := .output o rest next }

/-- The next primitive is BusRead(a). -/
def toInput (a : Byte) (k : Await) (s : State) : State := { s with pos := .input a k }

/-- BusWrite or RstPin (R13): one event (R66); RstPin drives RST_N (R35). -/
def drive (o : Out) (s : State) : State :=
  match o with
  | .write a v => { s with history := s.history ++ [.w a v] }
  | .pin l => { s with history := s.history ++ [.p l], rstN := l }

/-- The environment's answer to BusRead(a) (R67): the next scripted answer, or the oracle's. -/
def answerTo (a : Byte) (s : State) : Byte :=
  match s.answers with
  | v :: _ => v
  | [] => Config.environmentAnswer s.epoch s.history a

/-- The state after BusRead(a): one event (R66), one scripted answer used. -/
def afterRead (a : Byte) (s : State) : State :=
  { s with history := s.history ++ [.r a (answerTo a s)], answers := s.answers.tail }

/-- One BusWrite per element, in list order (R13, R69). -/
def writesOf (a : Byte) (xs : List Byte) : List Out := xs.map (Out.write a)

/-! Buffers. -/

/-- Store `xs[i]` into byte `i` of a buffer for each i below the list's length; the other bytes keep their values. -/
def storeBytes {n : Nat} (xs : List Byte) (buf : Vector Byte n) : Vector Byte n :=
  Vector.ofFn fun i => (xs[i.val]?).getD buf[i]

/-- The first `k` bytes of a buffer, in order. -/
def firstBytes {n : Nat} (k : Nat) (buf : Vector Byte n) : List Byte := buf.toList.take k

/-- A receive: RXBUF[0..] <- xs, RXLEN <- the number of bytes (R111, R138, R160). -/
def receive (xs : List Byte) (s : State) : State := { s with rxbuf := storeBytes xs s.rxbuf, rxlen := xs.length }

/-! Sequencer reset. -/

/-- The reset input (R280, R281): in one step and with no chip transaction it abandons any running command, sets every
host register to its reset value, leaves every buffer unspecified (new draws), drives RST_N to 1 and empties the bus
history. The configuration, the host's remaining turns, the environment's answers and what the host has read are not
the sequencer's. -/
def sequencerReset (s : State) : State where
  op := 0x00
  argA := 0x00
  argB := 0x00
  argC := 0x00
  result := false
  code := .ok
  pstate := .idle
  rxlen := 0
  exc := none
  txbuf := drawnBuffer 64 (s.epoch + 1) 0x40
  rxbuf := drawnBuffer 64 (s.epoch + 1) 0x80
  uid := drawnBuffer 5 (s.epoch + 1) 0xC0
  cmpuid := drawnBuffer 4 (s.epoch + 1) 0xC8
  key := drawnBuffer 6 (s.epoch + 1) 0xD0
  crcres := drawnBuffer 2 (s.epoch + 1) 0xD8
  pos := .idle
  rstN := true
  history := []
  cfg := s.cfg
  schedule := s.schedule
  answers := s.answers
  hostReads := s.hostReads
  epoch := s.epoch + 1

end Sys2Proof.Machine
end

