-- ==== Sys2Proof/Machine/Transceiver.lean ====
section
/-! DEFINITION. The procedures waitForBootUp (R130), checkError (R134), communicate (R160–R163), calculateCRC (R230)
and sendWithCRC (R211) as they start, and the command COMM (R164). How a procedure returns to its caller is
Machine/Sequencer.lean. -/

namespace Sys2Proof.Machine

/-- communicate(cmd, tx, cap), steps 1 and 2 (R160): RXLEN <- 0, then idle, clear, flush, load and start; step 3 for a
transceive, else the poll, follows. -/
def startCommunicate (cmd : BitVec 4) (tx : List Byte) (cap : Nat) (caller : CommCaller) (s : State) : State :=
  toOutput (.write s.cfg.regCommand (commandByte s.cfg.cmdIdle))
    (.write s.cfg.regComIrq s.cfg.irqClearAll :: .write s.cfg.regFifoLevel s.cfg.mFlush ::
      (writesOf s.cfg.regFifoData tx ++ [.write s.cfg.regCommand (commandByte cmd)]))
    (if cmd = s.cfg.cmdTransceive then .startSend cmd cap caller else .pollCom cmd cap caller)
    { s with rxlen := 0 }

/-- A card command's frame (R181, R182, R211): write REG_BITFRAMING, then communicate(CMD_TRANSCEIVE, tx, 64). -/
def startFrame (framing : Byte) (tx : List Byte) (caller : CommCaller) (s : State) : State :=
  toOutput (.write s.cfg.regBitFraming framing) [] (.exchange s.cfg.cmdTransceive tx 64 caller) s

/-- calculateCRC(data) up to its poll (R230). -/
def startCalculateCRC (data : List Byte) (caller : CrcCaller) (s : State) : State :=
  toOutput (.write s.cfg.regCommand (commandByte s.cfg.cmdIdle))
    (.write s.cfg.regDivIrq s.cfg.divIrqClearCrc :: .write s.cfg.regFifoLevel s.cfg.mFlush ::
      (writesOf s.cfg.regFifoData data ++ [.write s.cfg.regCommand (commandByte s.cfg.cmdCalcCrc)]))
    (.pollCrc caller) s

/-- Send `body` with its CRC (R185, R211): calculateCRC(body) first. -/
def startSendWithCRC (body : List Byte) (caller : CommCaller) (s : State) : State :=
  startCalculateCRC body (.send body caller) s

/-- verifyCRC(k) (R234): calculateCRC(RXBUF[0..k-1]) first. -/
def startVerifyCRC (k : Nat) (caller : VerifyCaller) (s : State) : State :=
  startCalculateCRC (firstBytes k s.rxbuf) (.verify k caller) s

/-- waitForBootUp's first poll (R130). -/
def startWaitForBootUp (caller : BootCaller) (s : State) : State := toInput s.cfg.regCommand (.boot 0 caller) s

/-- checkError's read (R134). -/
def startCheckError (caller : ErrorCaller) (s : State) : State := toInput s.cfg.regError (.error caller) s

/-- BusReadN(a, n) (R13, R69) for n ≥ 1, written n = left + 1. -/
def startBulkRead (a : Byte) (left : Nat) (caller : BulkCaller) (s : State) : State :=
  toInput a (.bulk a left [] caller) s

/-- SetBitMask(a, m) (R13), then the outputs `rest`, then `next`. -/
def startSetBits (a m : Byte) (rest : List Out) (next : After) (s : State) : State :=
  toInput a (.setBits a m rest next) s

/-- ClearBitMask(a, m) (R13), then `next`. -/
def startClearBits (a m : Byte) (next : After) (s : State) : State := toInput a (.clearBits a m next) s

/-- COMM (R164): communicate(A, TXBUF[0..B-1], C). It writes neither REG_BITFRAMING nor PSTATE. -/
def execComm (cmd len cap : Byte) (s : State) : Result :=
  issue (Instr.opcode (.comm cmd len cap)) (isChipCommand cmd && isLength len && isLength cap)
    (fun s => startCommunicate (chipCommand cmd) (firstBytes len.toNat s.txbuf) cap.toNat .comm s) s

/-- COMM after communicate returned `c` (R164). -/
def commReturned (c : Status) (s : State) : State := finish c (isOk c) s

end Sys2Proof.Machine
end

