-- ==== Sys2Proof/Machine/BlockAuth.lean ====
section
/-! DEFINITION. Authentication and block read/write (44_block_auth.md). Authentication before a read or write is not
checked: the card decides (R212, R214). -/

namespace Sys2Proof.Machine

/-- AUTH's frame (R210): variant, block, KEY[0..5], UID[0..3]; no CRC. -/
def authFrame (variant block : Byte) (s : State) : List Byte :=
  [variant, block] ++ s.key.toList ++ firstBytes 4 s.uid

/-- AUTH (R210). -/
def execAuth (variant block : Byte) (s : State) : Result :=
  issue (Instr.opcode (.auth variant block)) (isAuthVariant s.cfg variant)
    (fun s => startCommunicate s.cfg.cmdMfAuthent (authFrame variant block s) 64 .auth s) s

/-- AUTH's end (R210, R27). -/
def authEnd (c : Status) (s : State) : State :=
  finish c (isOk c) (setPState (if c = .ok then .authenticated else .idle) s)

/-- AUTH after communicate returned `c` (R210): read the authenticated-state register only on Ok. -/
def authReturned (c : Status) (s : State) : State :=
  if c = .ok then toInput s.cfg.regAuthStatus .authStatus s else authEnd c s

/-- AUTH with REG_AUTHSTATUS read (R210). -/
def authAnswered (v : Byte) (s : State) : State :=
  authEnd (if anyBit v s.cfg.mCrypto1On then .ok else .generalStatusError) s

/-- RDBLK (R212). -/
def execRdblk (block : Byte) (s : State) : Result :=
  issue (Instr.opcode (.rdblk block)) true (fun s => startSendWithCRC [s.cfg.mfRead, block] .rdblk s) s

/-- RDBLK after its exchange returned `c` (R212): the length check, then verifyCRC(16). -/
def rdblkReturned (c : Status) (s : State) : State :=
  if c ≠ .ok then failCard c s
  else if s.rxlen ≠ s.cfg.readRespLen then failCard .generalStatusError s
  else startVerifyCRC 16 .rdblk s

/-- RDBLK after verifyCRC returned `c` (R212): PSTATE is unchanged on Ok. -/
def rdblkVerified (c : Status) (s : State) : State :=
  if c = .ok then finish .ok true s else failCard c s

/-- WRBLK (R213): the command frame. -/
def execWrblk (block : Byte) (s : State) : Result :=
  issue (Instr.opcode (.wrblk block)) true (fun s => startSendWithCRC [s.cfg.mfWrite, block] .wrblkCommand s) s

/-- WRBLK after the command frame's exchange returned `c` (R213): without an acknowledge the data are never sent. -/
def wrblkCommandReturned (c : Status) (s : State) : State :=
  if c ≠ .ok then failCard c s
  else if isAck s then startSendWithCRC (firstBytes 16 s.txbuf) .wrblkData s
  else failCard .writeError s

/-- WRBLK after the data frame's exchange returned `c` (R213). -/
def wrblkDataReturned (c : Status) (s : State) : State :=
  if c ≠ .ok then failCard c s
  else if isAck s then finish .ok true s
  else failCard .writeError s

end Sys2Proof.Machine
end

