-- ==== Sys2Proof/Machine/Crc.lean ====
section
/-! DEFINITION. The CRC coprocessor command (R233), the result's placement (R231), the comparison of verifyCRC (R234),
and the function CRC_FN of R232, which the spec names for test vectors and premises about the environment only: the
sequencer itself computes no CRC. -/

namespace Sys2Proof.Machine

/-- CRC (R233). -/
def execCrc (n : Byte) (s : State) : Result :=
  issue (Instr.opcode (.crc n)) (isLength n)
    (fun s => startCalculateCRC (firstBytes n.toNat s.txbuf) .crc s) s

/-- CRC after calculateCRC returned `c` (R233). -/
def crcCommandReturned (c : Status) (s : State) : State := finish c (isOk c) s

/-- calculateCRC's result (R230, R231): CRCRES[0] <- low, CRCRES[1] <- high. -/
def storeCrc (hi lo : Byte) (s : State) : State := { s with crcres := #v[lo, hi] }

/-- verifyCRC's comparison (R234): RXBUF[k..k+1] are CRCRES[0..1]. -/
def crcMatches (k : Nat) (s : State) : Bool :=
  (s.rxbuf[k]?).getD 0 == s.crcres[0] && (s.rxbuf[k + 1]?).getD 0 == s.crcres[1]

/-- verifyCRC's status after calculateCRC returned `c` (R234). -/
def verifyStatus (k : Nat) (c : Status) (s : State) : Status :=
  if c ≠ .ok then c else if crcMatches k s then .ok else .crcError

/-- One byte step of CRC_FN's default, CRC_A (R232). -/
def crcStep (crc : BitVec 16) (b : Byte) : BitVec 16 :=
  let b0 := b ^^^ crc.setWidth 8
  let b1 := (b0 ^^^ (b0 <<< 4)).setWidth 16
  (crc >>> 8) ^^^ (b1 <<< 8) ^^^ (b1 <<< 3) ^^^ (b1 >>> 4)

/-- CRC_A of a list of bytes (R232): initial value 0x6363, no final XOR. -/
def crcA (xs : List Byte) : BitVec 16 := xs.foldl crcStep 0x6363

/-- The low byte of a CRC, transmitted first (R231, R232). -/
def crcLowByte (c : BitVec 16) : Byte := c.setWidth 8

/-- The high byte of a CRC. -/
def crcHighByte (c : BitVec 16) : Byte := (c >>> 8).setWidth 8

end Sys2Proof.Machine
end

