-- ==== Sys2Proof/Machine/Discovery.lean ====
section
/-! DEFINITION. Card discovery and anti-collision (43_discovery.md): the bodies of ISPRES and GETUID, which WAITUID runs
too (R184), SELECT, and the two comparisons without I/O. No command checks PSTATE (R187). -/

namespace Sys2Proof.Machine

/-- The body of ISPRES up to its exchange (R181): REQA or WUPA with a 7-bit final byte. -/
def startIspres (caller : CommCaller) (s : State) : State := startFrame s.cfg.framingReq [s.cfg.piccReq] caller s

/-- ISPRES's boolean (R181): communicate returned Ok and ATQA_LEN bytes. -/
def atqaPresent (c : Status) (s : State) : Bool := isOk c && s.rxlen == s.cfg.atqaLen

/-- ISPRES's PSTATE write (R181, R27). -/
def ispresState (c : Status) (s : State) : State :=
  setPState (if atqaPresent c s then .requested else .idle) s

/-- ISPRES (R181). -/
def execIspres (s : State) : Result := issue (Instr.opcode .ispres) true (startIspres .ispres) s

/-- ISPRES after communicate returned `c` (R181). -/
def ispresReturned (c : Status) (s : State) : State :=
  finish (if atqaPresent c s then .ok else if c = .ok then .generalStatusError else c) (atqaPresent c s)
    (ispresState c s)

/-- The body of GETUID up to its exchange (R182). -/
def startGetuid (caller : CommCaller) (s : State) : State :=
  startFrame s.cfg.framingFull [s.cfg.selCl1, s.cfg.nvbAnticoll] caller (setPState .uidPending s)

/-- GETUID's copy (R182): UID[i] <- RXBUF[i] for i below min(RXLEN, 5). -/
def copyUid (s : State) : State := { s with uid := storeBytes (firstBytes (min s.rxlen 5) s.rxbuf) s.uid }

/-- GETUID's status, from the UID as copied (R182, R183). -/
def getuidStatus (c : Status) (s : State) : Status :=
  if c ≠ .ok then c
  else if s.rxlen ≠ 5 then .bccError
  else if uidValid s.uid then .ok
  else .bccError

/-- GETUID's PSTATE write, after the copy (R182, R27). -/
def getuidState (c : Status) (s : State) : State :=
  setPState (if getuidStatus c s = .ok then .uidAcquired else .idle) s

/-- GETUID (R182). -/
def execGetuid (s : State) : Result := issue (Instr.opcode .getuid) true (startGetuid .getuid) s

/-- GETUID after communicate returned `c` (R182). -/
def getuidReturned (c : Status) (s : State) : State :=
  finish (getuidStatus c (copyUid s)) (isOk (getuidStatus c (copyUid s))) (getuidState c (copyUid s))

/-- WAITUID (R184): the ISPRES body first. -/
def execWaituid (s : State) : Result := issue (Instr.opcode .waituid) true (startIspres .waitPresent) s

/-- WAITUID after its ISPRES body's exchange (R184): on with the GETUID body, or again. -/
def waitPresentReturned (c : Status) (s : State) : State :=
  if atqaPresent c s then startGetuid .waitUid (ispresState c s) else startIspres .waitPresent (ispresState c s)

/-- WAITUID after its GETUID body's exchange (R184): finish with a valid UID, or again; there is no bound (R291). -/
def waitUidReturned (c : Status) (s : State) : State :=
  if getuidStatus c (copyUid s) = .ok then finish .ok true (getuidState c (copyUid s))
  else startIspres .waitPresent (getuidState c (copyUid s))

/-- The select frame without its CRC (R185): the BCC is computed from UID[0..3]; UID[4] is not read. -/
def selectFrame (cfg : Config) (uid : Vector Byte 5) : List Byte :=
  [cfg.selCl1, cfg.nvbSelect, uid[0], uid[1], uid[2], uid[3], bccOf uid]

/-- SELECT (R186): its frame is sent with its CRC. -/
def execSelect (s : State) : Result :=
  issue (Instr.opcode .select) true (fun s => startSendWithCRC (selectFrame s.cfg s.uid) .select s) s

/-- SELECT after its exchange returned `c` (R186): the length check, then verifyCRC(1). -/
def selectReturned (c : Status) (s : State) : State :=
  if c ≠ .ok then failCard c s
  else if s.rxlen ≠ s.cfg.sakLen then failCard .generalStatusError s
  else startVerifyCRC 1 .select s

/-- SELECT after verifyCRC returned `c` (R186). -/
def selectVerified (c : Status) (s : State) : State :=
  if c = .ok then finish .ok true (setPState .selected s) else failCard c s

/-- CHKBCC (R189): no I/O; it finishes in the step that accepts it. -/
def execChkbcc (s : State) : Result :=
  issue (Instr.opcode .chkbcc) true
    (fun s => finish (if uidValid s.uid then .ok else .bccError) (uidValid s.uid) s) s

/-- UID[0..3] = CMPUID[0..3] (R190). -/
def uidMatches (s : State) : Bool :=
  s.uid[0] == s.cmpuid[0] && s.uid[1] == s.cmpuid[1] && s.uid[2] == s.cmpuid[2] && s.uid[3] == s.cmpuid[3]

/-- UIDEQ (R190): no I/O; CODE is always Ok. -/
def execUideq (s : State) : Result :=
  issue (Instr.opcode .uideq) true (fun s => finish .ok (uidMatches s) s) s

end Sys2Proof.Machine
end

