-- ==== Sys2Proof/Machine/Lifecycle.lean ====
section
/-! DEFINITION. The reader lifecycle commands (41_lifecycle.md) and what they do when waitForBootUp returns. -/

namespace Sys2Proof.Machine

/-- WAITBOOT (R131). -/
def execWaitboot (s : State) : Result := issue (Instr.opcode .waitboot) true (startWaitForBootUp .plain) s

/-- HRST (R132): PSTATE <- Idle, the reset pulse, then the boot wait. -/
def execHrst (s : State) : Result :=
  issue (Instr.opcode .hrst) true
    (fun s => toOutput (.pin false) [.pin true] (.pollBoot .plain) (setPState .idle s)) s

/-- SRST (R133): PSTATE <- Idle, the chip's soft-reset command, then the boot wait. -/
def execSrst (s : State) : Result :=
  issue (Instr.opcode .srst) true
    (fun s =>
      toOutput (.write s.cfg.regCommand (commandByte s.cfg.cmdSoftReset)) [] (.pollBoot .plain)
        (setPState .idle s)) s

/-- CHKERR (R135). -/
def execChkerr (s : State) : Result := issue (Instr.opcode .chkerr) true (startCheckError .chkerr) s

/-- ANT (R136): SetBitMask or ClearBitMask of M_ANTENNA; PSTATE <- Idle follows the latter. -/
def execAnt (on : Byte) (s : State) : Result :=
  issue (Instr.opcode (.ant on)) (isOnOff on)
    (fun s =>
      if on = 1 then startSetBits s.cfg.regTxControl s.cfg.mAntenna [] .done s
      else startClearBits s.cfg.regTxControl s.cfg.mAntenna .antennaOff s) s

/-- ANT 0 after its write (R136). -/
def antennaIsOff (s : State) : State := finish .ok true (setPState .idle s)

/-- INIT (R137): PSTATE <- Idle, the reset pulse, then the boot wait. -/
def execInit (s : State) : Result :=
  issue (Instr.opcode .init) true
    (fun s => toOutput (.pin false) [.pin true] (.pollBoot .init) (setPState .idle s)) s

/-- INIT after the boot wait (R137): antenna on, then the writes of INIT_SEQ in list order. -/
def initBooted (c : Status) (s : State) : State :=
  if c = .ok then
    startSetBits s.cfg.regTxControl s.cfg.mAntenna (s.cfg.initSeq.map fun e => Out.write e.1 e.2) .done s
  else finish c false s

/-- SELFTEST (R138): PSTATE <- Idle, the soft reset, then the boot wait. -/
def execSelftest (s : State) : Result :=
  issue (Instr.opcode .selftest) true
    (fun s =>
      toOutput (.write s.cfg.regCommand (commandByte s.cfg.cmdSoftReset)) [] (.pollBoot .selftest)
        (setPState .idle s)) s

/-- SELFTEST after the boot wait (R138): zero the chip's internal buffer, start the self-test, poll the FIFO level. -/
def selftestBooted (c : Status) (s : State) : State :=
  if c = .ok then
    toOutput (.write s.cfg.regFifoLevel s.cfg.mFlush)
      (writesOf s.cfg.regFifoData (List.replicate s.cfg.selftestZeros 0x00) ++
        [.write s.cfg.regCommand (commandByte s.cfg.cmdMem), .write s.cfg.regAutoTest s.cfg.autoTestOn,
          .write s.cfg.regFifoData 0x00, .write s.cfg.regCommand (commandByte s.cfg.cmdCalcCrc)])
      .pollFill s
  else finish c false s

/-- SELFTEST's fill poll (R138): `v` is REG_FIFOLEVEL, `k` polls have failed before. -/
def fillPolled (k : Nat) (v : Byte) (s : State) : State :=
  if 64 ≤ (v &&& s.cfg.mLevel).toNat then
    toOutput (.write s.cfg.regCommand (commandByte s.cfg.cmdIdle)) [] .capture s
  else if k + 1 = s.cfg.selftestPollMax then
    toOutput (.write s.cfg.regCommand (commandByte s.cfg.cmdIdle))
      [.write s.cfg.regAutoTest s.cfg.autoTestOff] .fillTimeOut s
  else toInput s.cfg.regFifoLevel (.fill (k + 1)) s

/-- SELFTEST's read-back of 64 bytes (R138). -/
def startCapture (s : State) : State := startBulkRead s.cfg.regFifoData 63 .selftest s

/-- SELFTEST with the 64 bytes read (R138): AUTOTEST_OFF before they are stored and compared. -/
def captured (xs : List Byte) (s : State) : State :=
  toOutput (.write s.cfg.regAutoTest s.cfg.autoTestOff) [] (.judge xs) s

/-- The captured bytes equal REF_V1 or REF_V2 (R138). -/
def selftestPasses (cfg : Config) (xs : List Byte) : Bool := xs == cfg.refV1.toList || xs == cfg.refV2.toList

/-- SELFTEST's end (R138). -/
def selftestJudged (xs : List Byte) (s : State) : State :=
  finish (if selftestPasses s.cfg xs then .ok else .generalStatusError) (selftestPasses s.cfg xs) (receive xs s)

/-- FLUSH (R139). -/
def execFlush (s : State) : Result :=
  issue (Instr.opcode .flush) true (fun s => toOutput (.write s.cfg.regFifoLevel s.cfg.mFlush) [] .done s) s

end Sys2Proof.Machine
end

