-- ==== Sys2Proof/Machine/RegisterBus.lean ====
section
/-! DEFINITION. The register bus commands (40_register_bus.md). Each finishes with CODE = Ok and RESULT = 1 (R116); none
writes PSTATE. -/

namespace Sys2Proof.Machine

/-- RREG (R110): one BusRead(A). -/
def execRreg (addr : Byte) (s : State) : Result :=
  issue (Instr.opcode (.rreg addr)) (isChipAddr addr) (toInput addr .rreg) s

/-- RREG with the answer `v` (R110): RXBUF[0] <- v, RXLEN <- 1; the other bytes of RXBUF keep their values. -/
def rregAnswered (v : Byte) (s : State) : State := finish .ok true (receive [v] s)

/-- RREGN (R111): BusReadN(A, B); B = 0 performs no transaction and sets RXLEN = 0. -/
def execRregn (addr n : Byte) (s : State) : Result :=
  issue (Instr.opcode (.rregn addr n)) (isChipAddr addr && isLength n)
    (fun s =>
      match n.toNat with
      | 0 => finish .ok true (receive [] s)
      | left + 1 => startBulkRead addr left .rregn s) s

/-- RREGN with all bytes read (R111). -/
def rregnAnswered (xs : List Byte) (s : State) : State := finish .ok true (receive xs s)

/-- WREG (R112): one BusWrite(A, B). -/
def execWreg (addr v : Byte) (s : State) : Result :=
  issue (Instr.opcode (.wreg addr v)) (isChipAddr addr) (toOutput (.write addr v) [] .done) s

/-- WREGN (R113): BusWriteN(A, TXBUF[0..B-1]); B = 0 performs no transaction. -/
def execWregn (addr n : Byte) (s : State) : Result :=
  issue (Instr.opcode (.wregn addr n)) (isChipAddr addr && isLength n)
    (fun s =>
      match writesOf addr (firstBytes n.toNat s.txbuf) with
      | [] => finish .ok true s
      | o :: rest => toOutput o rest .done s) s

/-- SETBM (R114): SetBitMask(A, B); both transactions always happen. -/
def execSetbm (addr mask : Byte) (s : State) : Result :=
  issue (Instr.opcode (.setbm addr mask)) (isChipAddr addr) (startSetBits addr mask [] .done) s

/-- CLRBM (R115): ClearBitMask(A, B); both transactions always happen. -/
def execClrbm (addr mask : Byte) (s : State) : Result :=
  issue (Instr.opcode (.clrbm addr mask)) (isChipAddr addr) (startClearBits addr mask .done) s

end Sys2Proof.Machine
end

