-- ==== Sys2Proof/Machine/Dispatch.lean ====
section
/-! DEFINITION. exec: the meaning of a host write that issues command `i` (R30), one arm per command. -/

namespace Sys2Proof.Machine

def exec (i : Instr) (s : State) : Host.Outcome State Fault Refusal :=
  match i with
  -- register bus commands
  | .rreg addr => Sys2Proof.Machine.execRreg addr s
  | .rregn addr n => Sys2Proof.Machine.execRregn addr n s
  | .wreg addr v => Sys2Proof.Machine.execWreg addr v s
  | .wregn addr n => Sys2Proof.Machine.execWregn addr n s
  | .setbm addr mask => Sys2Proof.Machine.execSetbm addr mask s
  | .clrbm addr mask => Sys2Proof.Machine.execClrbm addr mask s
  -- reader lifecycle commands
  | .hrst => Sys2Proof.Machine.execHrst s
  | .srst => Sys2Proof.Machine.execSrst s
  | .waitboot => Sys2Proof.Machine.execWaitboot s
  | .ant on => Sys2Proof.Machine.execAnt on s
  | .chkerr => Sys2Proof.Machine.execChkerr s
  | .init => Sys2Proof.Machine.execInit s
  | .selftest => Sys2Proof.Machine.execSelftest s
  | .flush => Sys2Proof.Machine.execFlush s
  -- transceiver
  | .comm cmd len cap => Sys2Proof.Machine.execComm cmd len cap s
  -- card discovery and anti-collision
  | .ispres => Sys2Proof.Machine.execIspres s
  | .getuid => Sys2Proof.Machine.execGetuid s
  | .waituid => Sys2Proof.Machine.execWaituid s
  | .select => Sys2Proof.Machine.execSelect s
  | .chkbcc => Sys2Proof.Machine.execChkbcc s
  | .uideq => Sys2Proof.Machine.execUideq s
  -- authentication and block read/write
  | .auth variant block => Sys2Proof.Machine.execAuth variant block s
  | .rdblk block => Sys2Proof.Machine.execRdblk block s
  | .wrblk block => Sys2Proof.Machine.execWrblk block s
  -- CRC coprocessor
  | .crc n => Sys2Proof.Machine.execCrc n s

end Sys2Proof.Machine
end

