-- ==== Sys2Proof/Machine/HostPort.lean ====
section
/-! DEFINITION. The host port: the address map (R63), the read of one byte (R61), and the writes that issue no command
(R62, R31, R32, R64). -/

namespace Sys2Proof.Machine

/-- What stands at a host address (R63). -/
inductive HostLoc
  | op
  | argA
  | argB
  | argC
  | status
  | code
  | pstate
  | rxlen
  | exc
  | txbuf (i : Fin 64)
  | rxbuf (i : Fin 64)
  | uid (i : Fin 5)
  | cmpuid (i : Fin 4)
  | key (i : Fin 6)
  | crcres (i : Fin 2)
  | reserved
  deriving DecidableEq, Repr

/-- The host address map (R63): byte i of a buffer that starts at address base is at base + i. -/
def locate (a : Byte) : HostLoc :=
  if a.toNat = 0x00 then .op
  else if a.toNat = 0x01 then .argA
  else if a.toNat = 0x02 then .argB
  else if a.toNat = 0x03 then .argC
  else if a.toNat = 0x04 then .status
  else if a.toNat = 0x05 then .code
  else if a.toNat = 0x06 then .pstate
  else if a.toNat = 0x07 then .rxlen
  else if a.toNat = 0x08 then .exc
  else if h : 0x40 ≤ a.toNat ∧ a.toNat ≤ 0x7F then .txbuf ⟨a.toNat - 0x40, by omega⟩
  else if h : 0x80 ≤ a.toNat ∧ a.toNat ≤ 0xBF then .rxbuf ⟨a.toNat - 0x80, by omega⟩
  else if h : 0xC0 ≤ a.toNat ∧ a.toNat ≤ 0xC4 then .uid ⟨a.toNat - 0xC0, by omega⟩
  else if h : 0xC8 ≤ a.toNat ∧ a.toNat ≤ 0xCB then .cmpuid ⟨a.toNat - 0xC8, by omega⟩
  else if h : 0xD0 ≤ a.toNat ∧ a.toNat ≤ 0xD5 then .key ⟨a.toNat - 0xD0, by omega⟩
  else if h : 0xD8 ≤ a.toNat ∧ a.toNat ≤ 0xD9 then .crcres ⟨a.toNat - 0xD8, by omega⟩
  else .reserved

/-- The byte a host read finds at a location (R61); reserved bits and reserved addresses read as 0 (R61, R64). -/
def readLoc (l : HostLoc) (s : State) : Byte :=
  match l with
  | .op => s.op
  | .argA => s.argA
  | .argB => s.argB
  | .argC => s.argC
  | .status => statusRegister s
  | .code => statusByte s.code
  | .pstate => pstateByte s.pstate
  | .rxlen => BitVec.ofNat 8 s.rxlen
  | .exc => excByte s.exc
  | .txbuf i => s.txbuf[i]
  | .rxbuf i => s.rxbuf[i]
  | .uid i => s.uid[i]
  | .cmpuid i => s.cmpuid[i]
  | .key i => s.key[i]
  | .crcres i => s.crcres[i]
  | .reserved => 0x00

/-- MemRead(a, 1): the read of one byte of the host address space (R61). It has no side effect. -/
def hostRead (a : Byte) (s : State) : Byte := readLoc (locate a) s

/-- A store to a register or input buffer while BUSY = 0; while BUSY = 1 it is dropped with CmdWhileBusy (R31, R62). -/
def storeUnlessBusy (store : State → State) (s : State) : State :=
  if s.busy then raiseException .cmdWhileBusy s else store s

/-- A host write to a location other than OP (R62): the read-only and reserved locations ignore it at all times, and EXC
is cleared whether or not BUSY = 1 (R32). A write to OP issues a command: Machine/Issue.lean. -/
def writeLoc (l : HostLoc) (v : Byte) (s : State) : State :=
  match l with
  | .op => s
  | .argA => storeUnlessBusy (fun s => { s with argA := v }) s
  | .argB => storeUnlessBusy (fun s => { s with argB := v }) s
  | .argC => storeUnlessBusy (fun s => { s with argC := v }) s
  | .status => s
  | .code => s
  | .pstate => s
  | .rxlen => s
  | .exc => clearException s
  | .txbuf i => storeUnlessBusy (fun s => { s with txbuf := s.txbuf.set i v }) s
  | .rxbuf _ => s
  | .uid i => storeUnlessBusy (fun s => { s with uid := s.uid.set i v }) s
  | .cmpuid i => storeUnlessBusy (fun s => { s with cmpuid := s.cmpuid.set i v }) s
  | .key i => storeUnlessBusy (fun s => { s with key := s.key.set i v }) s
  | .crcres _ => s
  | .reserved => s

end Sys2Proof.Machine
end

