-- ==== Sys2Proof/Machine/Sequencer.lean ====
section
/-! DEFINITION. One sequencer step (R18, R30, R292): the chip-port primitive at the position, and with it the internal
computation up to the next primitive or to `finish`. A procedure returns to the caller its position names. -/

namespace Sys2Proof.Machine

/-- communicate returns `c` (R160). -/
def communicateReturns (caller : CommCaller) (c : Status) (s : State) : State :=
  match caller with
  | .comm => commReturned c s
  | .ispres => ispresReturned c s
  | .getuid => getuidReturned c s
  | .waitPresent => waitPresentReturned c s
  | .waitUid => waitUidReturned c s
  | .select => selectReturned c s
  | .auth => authReturned c s
  | .rdblk => rdblkReturned c s
  | .wrblkCommand => wrblkCommandReturned c s
  | .wrblkData => wrblkDataReturned c s

/-- verifyCRC returns `c` (R234). -/
def verifyReturns (caller : VerifyCaller) (c : Status) (s : State) : State :=
  match caller with
  | .select => selectVerified c s
  | .rdblk => rdblkVerified c s

/-- calculateCRC returns `c` (R230); before a frame is sent, the framing write and communicate follow (R186, R211), and
a failure goes to the frame's sender. -/
def calculateCRCReturns (caller : CrcCaller) (c : Status) (s : State) : State :=
  match caller with
  | .crc => crcCommandReturned c s
  | .send body sender =>
    if c = .ok then startFrame s.cfg.framingFull (body ++ s.crcres.toList) sender s
    else communicateReturns sender c s
  | .verify k verifier => verifyReturns verifier (verifyStatus k c s) s

/-- waitForBootUp returns `c` (R130). -/
def waitForBootUpReturns (caller : BootCaller) (c : Status) (s : State) : State :=
  match caller with
  | .plain => finish c (isOk c) s
  | .init => initBooted c s
  | .selftest => selftestBooted c s

/-- checkError returns `c` (R134); within communicate (R163) the FIFO level is read on Ok and BufferOverflow only. -/
def checkErrorReturns (caller : ErrorCaller) (c : Status) (s : State) : State :=
  match caller with
  | .chkerr => finish c (isOk c) s
  | .communicate cap sender =>
    if c = .ok ∨ c = .bufferOverflow then toInput s.cfg.regFifoLevel (.level cap c sender) s
    else communicateReturns sender c s

/-- A bulk read returns its bytes (R69). -/
def bulkReturns (caller : BulkCaller) (xs : List Byte) (s : State) : State :=
  match caller with
  | .rregn => rregnAnswered xs s
  | .communicate c sender => communicateReturns sender c (receive xs s)
  | .selftest => captured xs s

/-- waitForBootUp's poll (R130): `v` is REG_COMMAND, `k` polls have failed before. A
BOOT_POLL_MAX of 0 is never reached (DEDUCED, log entry 11). -/
def bootPolled (k : Nat) (caller : BootCaller) (v : Byte) (s : State) : State :=
  if anyBit v s.cfg.mPowerDown then
    if s.cfg.bootPollMax = some (k + 1) then waitForBootUpReturns caller .timeOut s
    else toInput s.cfg.regCommand (.boot (k + 1) caller) s
  else waitForBootUpReturns caller .ok s

/-- communicate's poll (R162): the timer bit, then a completion or error bit, then the count. -/
def comPolled (k : Nat) (cmd : BitVec 4) (cap : Nat) (caller : CommCaller) (v : Byte) (s : State) : State :=
  if anyBit v s.cfg.mTimerIrq then communicateReturns caller .timeOut s
  else if anyBit v (doneMask s.cfg cmd ||| s.cfg.mErrIrq) then startCheckError (.communicate cap caller) s
  else if k + 1 = s.cfg.pollMax then communicateReturns caller .timeOut s
  else toInput s.cfg.regComIrq (.comIrq (k + 1) cmd cap caller) s

/-- communicate's read-back (R160): min(level, cap) bytes. -/
def levelRead (cap : Nat) (c : Status) (caller : CommCaller) (v : Byte) (s : State) : State :=
  match min (v &&& s.cfg.mLevel).toNat cap with
  | 0 => bulkReturns (.communicate c caller) [] s
  | left + 1 => startBulkRead s.cfg.regFifoData left (.communicate c caller) s

/-- calculateCRC's poll (R230): `v` is REG_DIVIRQ, `k` polls have failed before. -/
def crcPolled (k : Nat) (caller : CrcCaller) (v : Byte) (s : State) : State :=
  if anyBit v s.cfg.mCrcIrq then toInput s.cfg.regCrcResultH (.crcHigh caller) s
  else if k + 1 = s.cfg.crcPollMax then calculateCRCReturns caller .timeOut s
  else toInput s.cfg.regDivIrq (.divIrq (k + 1) caller) s

/-- One byte of a bulk read (R69). -/
def bulkRead (a : Byte) (left : Nat) (got : List Byte) (caller : BulkCaller) (v : Byte) (s : State) : State :=
  match left with
  | 0 => bulkReturns caller (got ++ [v]) s
  | left + 1 => toInput a (.bulk a left (got ++ [v]) caller) s

/-- What follows a row of outputs. -/
def proceed (next : After) (s : State) : State :=
  match next with
  | .done => finish .ok true s
  | .fillTimeOut => finish .timeOut false s
  | .antennaOff => antennaIsOff s
  | .pollBoot caller => startWaitForBootUp caller s
  | .exchange cmd tx cap caller => startCommunicate cmd tx cap caller s
  | .startSend cmd cap caller => startSetBits s.cfg.regBitFraming s.cfg.mStartSend [] (.pollCom cmd cap caller) s
  | .pollCom cmd cap caller => toInput s.cfg.regComIrq (.comIrq 0 cmd cap caller) s
  | .pollCrc caller => toInput s.cfg.regDivIrq (.divIrq 0 caller) s
  | .pollFill => toInput s.cfg.regFifoLevel (.fill 0) s
  | .capture => startCapture s
  | .judge xs => selftestJudged xs s

/-- What follows a BusRead that answered `v`. -/
def answered (k : Await) (v : Byte) (s : State) : State :=
  match k with
  | .rreg => rregAnswered v s
  | .bulk a left got caller => bulkRead a left got caller v s
  | .setBits a m rest next => toOutput (.write a (v ||| m)) rest next s
  | .clearBits a m next => toOutput (.write a (v &&& ~~~m)) [] next s
  | .boot k caller => bootPolled k caller v s
  | .error caller => checkErrorReturns caller (errorStatus s.cfg v) s
  | .comIrq k cmd cap caller => comPolled k cmd cap caller v s
  | .level cap c caller => levelRead cap c caller v s
  | .divIrq k caller => crcPolled k caller v s
  | .crcHigh caller => toInput s.cfg.regCrcResultL (.crcLow v caller) s
  | .crcLow hi caller => calculateCRCReturns caller .ok (storeCrc hi v s)
  | .fill k => fillPolled k v s
  | .authStatus => authAnswered v s

/-- What follows an output: the next of the row, or what comes after the row. -/
def afterOutput (rest : List Out) (next : After) (s : State) : State :=
  match rest with
  | o :: rest => toOutput o rest next s
  | [] => proceed next s

/-- Between two primitives: the position is being worked out anew. -/
def leavePosition (s : State) : State := { s with pos := .idle }

/-- One sequencer step. An idle sequencer does nothing: it waits for a host write to OP (R281). -/
def sequencerStep (s : State) : State :=
  match s.pos with
  | .idle => s
  | .output o rest next => afterOutput rest next (drive o (leavePosition s))
  | .input a k => answered k (answerTo a s) (afterRead a (leavePosition s))

end Sys2Proof.Machine
end

