-- ==== Sys2Proof/Machine/Issue.lean ====
section
/-! DEFINITION. Where a command word comes from (R90: the OP byte written, with ARG_A, ARG_B and ARG_C as they stand),
the host write (R62), one turn of a run (R18, R70), and what puts an instruction before the next step. -/

namespace Sys2Proof.Machine

/-- The bytes of the command word a write of `v` to OP issues: host addresses 0x00 to 0x03 (R74, R90). -/
def issuedBytes (v : Byte) (s : State) : List Byte := [v, s.argA, s.argB, s.argC]

/-- A host write of `v` to OP (R30, R255): busy first, then an illegal opcode, then the command's own check of its
operands and its start. -/
def writeOp (v : Byte) (s : State) : Result :=
  if s.busy then .next (raiseException .cmdWhileBusy s)
  else
    match decodeBytes (issuedBytes v s) with
    | .ok (i, _) => exec i s
    | .error _ => .next (raiseException .illegalOpcode s)

/-- MemWrite(a, 1, v) (R62). -/
def hostWrite (a v : Byte) (s : State) : Result :=
  match locate a with
  | .op => writeOp v s
  | l => .next (writeLoc l v s)

/-- One turn (R18, R70). A host read is logged with the value it returned (R61). -/
def takeTurn (t : Turn) (s : State) : Result :=
  match t with
  | .hostRead a => .next { s with hostReads := s.hostReads ++ [(a, hostRead a s)] }
  | .hostWrite a v => hostWrite a v s
  | .reset => .next (sequencerReset s)
  | .sequencer => .next (sequencerStep s)

/-- `s` with a command word before its next step: the sequencer idle, the operand fields in ARG_A, ARG_B and ARG_C, and
the OP write of R284 as the next turn. -/
def placeWord (w : Word) (s : State) : State :=
  { s with
    argA := Word.fieldA w
    argB := Word.fieldB w
    argC := Word.fieldC w
    pos := .idle
    schedule := .hostWrite 0x00 (Word.op w) :: s.schedule }

end Sys2Proof.Machine
end

