-- ==== Sys2Proof/Machine/Step.lean ====
section
/-! DEFINITION. One step of the machine: the next turn of the schedule, or, when none is left, a sequencer step. -/

namespace Sys2Proof.Machine

/-- One step. An ill-formed configuration is refused (R76). With no turn scheduled the sequencer steps; if it is idle,
nothing happens (R281: it waits for a host write to OP). -/
def step (s : State) : Host.Outcome State Fault Refusal :=
  if configOk s.cfg then
    match s.schedule with
    | [] => .next (sequencerStep s)
    | t :: rest => takeTurn t { s with schedule := rest }
  else .refused .illFormedConfig

/-- `s` with the instruction of `nbits` bits `w`, numbered as spec/opcode_table.json numbers them, before its next step
(log entry 6). -/
def State.withFetchWord (s : State) (nbits w : Nat) : State := placeWord (tableWord nbits w) s

end Sys2Proof.Machine
end

