-- ==== Sys2Proof/Machine/Assembler.lean ====
section
/-! DEFINITION. The assembler (R97) and its pseudo-instructions (R98): a program is the host's port writes, one turn
each. -/

namespace Sys2Proof.Machine

/-- The mnemonic of a command (R92). -/
def mnemonic : Instr → String
  | .rreg _ => "RREG"
  | .rregn _ _ => "RREGN"
  | .wreg _ _ => "WREG"
  | .wregn _ _ => "WREGN"
  | .setbm _ _ => "SETBM"
  | .clrbm _ _ => "CLRBM"
  | .hrst => "HRST"
  | .srst => "SRST"
  | .waitboot => "WAITBOOT"
  | .ant _ => "ANT"
  | .chkerr => "CHKERR"
  | .init => "INIT"
  | .selftest => "SELFTEST"
  | .flush => "FLUSH"
  | .comm _ _ _ => "COMM"
  | .ispres => "ISPRES"
  | .getuid => "GETUID"
  | .waituid => "WAITUID"
  | .select => "SELECT"
  | .chkbcc => "CHKBCC"
  | .uideq => "UIDEQ"
  | .auth _ _ => "AUTH"
  | .rdblk _ => "RDBLK"
  | .wrblk _ => "WRBLK"
  | .crc _ => "CRC"

/-- The operands an assembler line writes after the mnemonic, in the order A, B, C (R97). -/
def writtenOperands : Instr → List Byte
  | .rreg a => [a]
  | .rregn a n => [a, n]
  | .wreg a v => [a, v]
  | .wregn a n => [a, n]
  | .setbm a m => [a, m]
  | .clrbm a m => [a, m]
  | .ant on => [on]
  | .comm cmd n cap => [cmd, n, cap]
  | .auth v block => [v, block]
  | .rdblk block => [block]
  | .wrblk block => [block]
  | .crc n => [n]
  | .hrst | .srst | .waitboot | .chkerr | .init | .selftest | .flush => []
  | .ispres | .getuid | .waituid | .select | .chkbcc | .uideq => []

/-- The host writes of one command, all four emitted, OP last (R97, R284). -/
def assemble (i : Instr) : List Turn :=
  [.hostWrite 0x01 i.operandA, .hostWrite 0x02 i.operandB, .hostWrite 0x03 i.operandC, .hostWrite 0x00 i.opcode]

/-- The pseudo-instructions of R98. `wait` says how many reads of STATUS the host's loop makes, one sequencer step before
each; the host stops when bit 0 reads 0. -/
inductive Pseudo
  | antOn
  | antOff
  | authA (block : Byte)
  | authB (block : Byte)
  | transceive (n cap : Byte)
  | idleChip
  | wait (reads : Nat)
  | loadTx (i : Fin 64) (v : Byte)
  deriving DecidableEq, Repr

/-- The expansions of R98. -/
def expand (cfg : Config) : Pseudo → List Turn
  | .antOn => assemble (.ant 1)
  | .antOff => assemble (.ant 0)
  | .authA block => assemble (.auth cfg.authKeyA block)
  | .authB block => assemble (.auth cfg.authKeyB block)
  | .transceive n cap => assemble (.comm (commandByte cfg.cmdTransceive) n cap)
  | .idleChip => assemble (.wreg cfg.regCommand (commandByte cfg.cmdIdle))
  | .wait reads => (List.replicate reads [Turn.sequencer, Turn.hostRead 0x04]).flatten
  | .loadTx i v => [.hostWrite (0x40 + BitVec.ofNat 8 i.val) v]

end Sys2Proof.Machine
end

