-- ==== Sys2Proof/Machine/Environment.lean ====
section
/-! DEFINITION. Premises about the environment (R67: "A claim about a command that depends on chip behaviour must state
that behaviour as a premise on the oracle"): what the chip answers during one call of a procedure, on every way the
procedure can end, and the bus events that go with it, written from the procedure's pseudocode. Nothing in the machine
uses them; statements do. -/

namespace Sys2Proof.Machine

/-- W events of one register, in order. -/
def writeEvents (a : Byte) (xs : List Byte) : List BusEvent := xs.map (BusEvent.w a)

/-- R events of one register, in order. -/
def readEvents (a : Byte) (xs : List Byte) : List BusEvent := xs.map (BusEvent.r a)

/-! communicate (R160–R163). -/

/-- How a call of communicate ends. -/
inductive ComEnd
  /-- The poll budget runs out (R162, test 3). -/
  | exhausted
  /-- REG_COMIRQ answers with the timer bit (R162, test 1). -/
  | timer (irq : Byte)
  /-- The poll completes and REG_ERROR shows an error other than a buffer overflow (R163). -/
  | failed (irq error : Byte)
  /-- The poll completes and the FIFO is read back (R163): REG_COMIRQ, REG_ERROR, REG_FIFOLEVEL, the bytes. -/
  | readBack (irq error level : Byte) (data : List Byte)
  deriving DecidableEq, Repr

/-- The chip's answers in one call of communicate. -/
structure ComRun where
  /-- REG_BITFRAMING, read by step 3 of a transceive only. -/
  framing : Byte
  /-- REG_COMIRQ answers that end nothing. -/
  misses : List Byte
  /-- How the call ends. -/
  ending : ComEnd
  deriving DecidableEq, Repr

/-- The REG_COMIRQ bits that end the poll of `cmd` as a completion or an error (R161, R162), written out. -/
def endBits (cfg : Config) (cmd : BitVec 4) : Byte :=
  if cmd = cfg.cmdTransceive then cfg.mRxIrq ||| cfg.mIdleIrq ||| cfg.mErrIrq else cfg.mIdleIrq ||| cfg.mErrIrq

/-- REG_COMIRQ answer `v` does not end the poll of `cmd` (R162). -/
def comMiss (cfg : Config) (cmd : BitVec 4) (v : Byte) : Bool :=
  v &&& cfg.mTimerIrq == 0 && v &&& endBits cfg cmd == 0

/-- REG_COMIRQ answer `v` ends the poll of `cmd` as a completion (R162). -/
def comHit (cfg : Config) (cmd : BitVec 4) (v : Byte) : Bool :=
  v &&& cfg.mTimerIrq == 0 && v &&& endBits cfg cmd != 0

/-- The status communicate returns. -/
def ComRun.status (x : ComRun) (cfg : Config) : Status :=
  match x.ending with
  | .exhausted => .timeOut
  | .timer _ => .timeOut
  | .failed _ e => errorStatus cfg e
  | .readBack _ e _ _ => errorStatus cfg e

/-- The bytes received: none but on the two paths that read the FIFO (R162, R163, R166). -/
def ComRun.data (x : ComRun) : List Byte :=
  match x.ending with
  | .readBack _ _ _ data => data
  | _ => []

/-- The answers are those of a call of communicate(cmd, ·, cap) (R160–R163). -/
def ComRun.fits (x : ComRun) (cfg : Config) (cmd : BitVec 4) (cap : Nat) : Prop :=
  (∀ v ∈ x.misses, comMiss cfg cmd v = true) ∧
    match x.ending with
    | .exhausted => x.misses.length = cfg.pollMax
    | .timer v => x.misses.length < cfg.pollMax ∧ anyBit v cfg.mTimerIrq = true
    | .failed v e =>
      x.misses.length < cfg.pollMax ∧ comHit cfg cmd v = true ∧ errorStatus cfg e ≠ .ok ∧
        errorStatus cfg e ≠ .bufferOverflow
    | .readBack v e level data =>
      x.misses.length < cfg.pollMax ∧ comHit cfg cmd v = true ∧
        (errorStatus cfg e = .ok ∨ errorStatus cfg e = .bufferOverflow) ∧
        data.length = min (level &&& cfg.mLevel).toNat cap

/-- The answers after the misses, in the order of their reads. -/
def ComEnd.answers : ComEnd → List Byte
  | .exhausted => []
  | .timer v => [v]
  | .failed v e => [v, e]
  | .readBack v e level data => [v, e, level] ++ data

/-- The events after the misses, in order. -/
def ComEnd.events (cfg : Config) : ComEnd → List BusEvent
  | .exhausted => []
  | .timer v => [.r cfg.regComIrq v]
  | .failed v e => [.r cfg.regComIrq v, .r cfg.regError e]
  | .readBack v e level data =>
    [.r cfg.regComIrq v, .r cfg.regError e, .r cfg.regFifoLevel level] ++ readEvents cfg.regFifoData data

/-- The answers of a call of communicate, in the order of its reads (R160). -/
def ComRun.answers (x : ComRun) (cfg : Config) (cmd : BitVec 4) : List Byte :=
  (if cmd = cfg.cmdTransceive then [x.framing] else []) ++ x.misses ++ x.ending.answers

/-- The events of communicate up to and with the command write (R160, steps 1 and 2). -/
def loadEvents (cfg : Config) (cmd : BitVec 4) (tx : List Byte) : List BusEvent :=
  [.w cfg.regCommand (commandByte cfg.cmdIdle), .w cfg.regComIrq cfg.irqClearAll, .w cfg.regFifoLevel cfg.mFlush] ++
    writeEvents cfg.regFifoData tx ++ [.w cfg.regCommand (commandByte cmd)]

/-- The events of communicate's step 3 (R160): SetBitMask(REG_BITFRAMING, M_STARTSEND), for a transceive only. -/
def startSendEvents (cfg : Config) (cmd : BitVec 4) (framing : Byte) : List BusEvent :=
  if cmd = cfg.cmdTransceive then
    [.r cfg.regBitFraming framing, .w cfg.regBitFraming (framing ||| cfg.mStartSend)]
  else []

/-- The events of a call of communicate that sends `tx` (R160). -/
def ComRun.events (x : ComRun) (cfg : Config) (cmd : BitVec 4) (tx : List Byte) : List BusEvent :=
  loadEvents cfg cmd tx ++ startSendEvents cfg cmd x.framing ++ readEvents cfg.regComIrq x.misses ++
    x.ending.events cfg

/-- The events of a card command's exchange (R181, R182, R211): the framing write, then communicate with a
transceive. -/
def ComRun.frameEvents (x : ComRun) (cfg : Config) (framing : Byte) (tx : List Byte) : List BusEvent :=
  .w cfg.regBitFraming framing :: x.events cfg cfg.cmdTransceive tx

/-- The answers are those of a card command's exchange: a transceive of capacity 64. -/
def ComRun.fitsFrame (x : ComRun) (cfg : Config) : Prop := x.fits cfg cfg.cmdTransceive 64

/-- The answers of a card command's exchange. -/
def ComRun.frameAnswers (x : ComRun) (cfg : Config) : List Byte := x.answers cfg cfg.cmdTransceive

/-! calculateCRC (R230). -/

/-- How a call of calculateCRC ends. -/
inductive CrcEnd
  /-- The poll budget runs out. -/
  | exhausted
  /-- REG_DIVIRQ answers with M_CRCIRQ; then the high and the low result byte. -/
  | ready (irq hi lo : Byte)
  deriving DecidableEq, Repr

/-- The chip's answers in one call of calculateCRC. -/
structure CrcRun where
  /-- REG_DIVIRQ answers with M_CRCIRQ clear. -/
  misses : List Byte
  /-- How the call ends. -/
  ending : CrcEnd
  deriving DecidableEq, Repr

/-- The status calculateCRC returns. -/
def CrcRun.status (x : CrcRun) : Status :=
  match x.ending with
  | .exhausted => .timeOut
  | .ready _ _ _ => .ok

/-- CRCRES after the call (R230, R231): the low byte first; unchanged on TimeOut. -/
def CrcRun.result (x : CrcRun) (old : Vector Byte 2) : Vector Byte 2 :=
  match x.ending with
  | .exhausted => old
  | .ready _ hi lo => #v[lo, hi]

/-- The answers are those of a call of calculateCRC (R230). -/
def CrcRun.fits (x : CrcRun) (cfg : Config) : Prop :=
  (∀ v ∈ x.misses, anyBit v cfg.mCrcIrq = false) ∧
    match x.ending with
    | .exhausted => x.misses.length = cfg.crcPollMax
    | .ready v _ _ => x.misses.length < cfg.crcPollMax ∧ anyBit v cfg.mCrcIrq = true

/-- The answers after the misses, in the order of their reads. -/
def CrcEnd.answers : CrcEnd → List Byte
  | .exhausted => []
  | .ready v hi lo => [v, hi, lo]

/-- The events after the misses, in order. -/
def CrcEnd.events (cfg : Config) : CrcEnd → List BusEvent
  | .exhausted => []
  | .ready v hi lo => [.r cfg.regDivIrq v, .r cfg.regCrcResultH hi, .r cfg.regCrcResultL lo]

/-- The answers of a CRC calculation, in the order of its reads (R230). -/
def CrcRun.answers (x : CrcRun) : List Byte := x.misses ++ x.ending.answers

/-- The events of calculateCRC up to and with the command write (R230). -/
def crcLoadEvents (cfg : Config) (data : List Byte) : List BusEvent :=
  [.w cfg.regCommand (commandByte cfg.cmdIdle), .w cfg.regDivIrq cfg.divIrqClearCrc,
    .w cfg.regFifoLevel cfg.mFlush] ++
    writeEvents cfg.regFifoData data ++ [.w cfg.regCommand (commandByte cfg.cmdCalcCrc)]

/-- The events of a CRC calculation over `data` (R230). -/
def CrcRun.events (x : CrcRun) (cfg : Config) (data : List Byte) : List BusEvent :=
  crcLoadEvents cfg data ++ readEvents cfg.regDivIrq x.misses ++ x.ending.events cfg

/-! waitForBootUp (R130). -/

/-- How a call of waitForBootUp ends, if it ends. -/
inductive BootEnd
  /-- A finite BOOT_POLL_MAX runs out. -/
  | exhausted
  /-- REG_COMMAND answers with M_POWERDOWN clear. -/
  | booted (v : Byte)
  deriving DecidableEq, Repr

/-- The chip's answers in one call of waitForBootUp. -/
structure BootRun where
  /-- REG_COMMAND answers with M_POWERDOWN set. -/
  misses : List Byte
  /-- How the call ends. -/
  ending : BootEnd
  deriving DecidableEq, Repr

/-- The status waitForBootUp returns. -/
def BootRun.status (x : BootRun) : Status :=
  match x.ending with
  | .exhausted => .timeOut
  | .booted _ => .ok

/-- `k` polls may fail without ending the wait (R130): BOOT_POLL_MAX is ∞, or no count from 1 to `k` equals it. The case
`n = 0`, a BOOT_POLL_MAX of 0 that no count equals, is DEDUCED (log entry 11). -/
def bootBudgetLasts (cfg : Config) (k : Nat) : Prop := ∀ n, cfg.bootPollMax = some n → n = 0 ∨ k < n

/-- The answers are those of a call of waitForBootUp that ends (R130). -/
def BootRun.fits (x : BootRun) (cfg : Config) : Prop :=
  (∀ v ∈ x.misses, anyBit v cfg.mPowerDown = true) ∧
    match x.ending with
    | .exhausted => x.misses ≠ [] ∧ cfg.bootPollMax = some x.misses.length
    | .booted v => bootBudgetLasts cfg x.misses.length ∧ anyBit v cfg.mPowerDown = false

/-- The answers after the misses. -/
def BootEnd.answers : BootEnd → List Byte
  | .exhausted => []
  | .booted v => [v]

/-- The answers of a boot wait. -/
def BootRun.answers (x : BootRun) : List Byte := x.misses ++ x.ending.answers

/-- The events of a boot wait (R130). -/
def BootRun.events (x : BootRun) (cfg : Config) : List BusEvent := readEvents cfg.regCommand x.answers

/-! SELFTEST's fill poll (R138). -/

/-- REG_FIFOLEVEL answer `v` shows 64 bytes or more (R138). -/
def fifoFull (cfg : Config) (v : Byte) : Bool := decide (64 ≤ (v &&& cfg.mLevel).toNat)

/-- The events from SELFTEST's flush up to and with its CMD_CALCCRC write (R138). -/
def selftestLoadEvents (cfg : Config) : List BusEvent :=
  .w cfg.regFifoLevel cfg.mFlush :: writeEvents cfg.regFifoData (List.replicate cfg.selftestZeros 0x00) ++
    [.w cfg.regCommand (commandByte cfg.cmdMem), .w cfg.regAutoTest cfg.autoTestOn, .w cfg.regFifoData 0x00,
      .w cfg.regCommand (commandByte cfg.cmdCalcCrc)]

/-! WAITUID's attempts (R184). -/

/-- The exchange of an ISPRES body finds a card (R181): Ok and ATQA_LEN bytes. -/
def ComRun.present (x : ComRun) (cfg : Config) : Prop := x.status cfg = .ok ∧ x.data.length = cfg.atqaLen

/-- The exchange of a GETUID body reads a valid UID (R182, R183): Ok, five bytes, the fifth the XOR of the others. -/
def ComRun.readsUid (x : ComRun) (cfg : Config) : Prop :=
  x.status cfg = .ok ∧ ∃ u0 u1 u2 u3, x.data = [u0, u1, u2, u3, u0 ^^^ u1 ^^^ u2 ^^^ u3]

/-- A failed attempt of WAITUID. -/
inductive WaitAttempt
  /-- No card is found. -/
  | absent (x : ComRun)
  /-- A card is found and its UID is not read. -/
  | unread (x y : ComRun)
  deriving DecidableEq, Repr

/-- The answers are those of a failed attempt (R184). -/
def WaitAttempt.fits (cfg : Config) : WaitAttempt → Prop
  | .absent x => x.fitsFrame cfg ∧ ¬ x.present cfg
  | .unread x y => x.fitsFrame cfg ∧ x.present cfg ∧ y.fitsFrame cfg ∧ ¬ y.readsUid cfg

/-- RXBUF after a failed attempt: what its responses stored over what was there (R160, R184). -/
def WaitAttempt.received (b : Vector Byte 64) : WaitAttempt → Vector Byte 64
  | .absent x => storeBytes x.data b
  | .unread x y => storeBytes y.data (storeBytes x.data b)

/-- The answers of a failed attempt. -/
def WaitAttempt.answers (cfg : Config) : WaitAttempt → List Byte
  | .absent x => x.frameAnswers cfg
  | .unread x y => x.frameAnswers cfg ++ y.frameAnswers cfg

/-- The events of an ISPRES body (R181). -/
def ComRun.requestEvents (x : ComRun) (cfg : Config) : List BusEvent :=
  x.frameEvents cfg cfg.framingReq [cfg.piccReq]

/-- The events of a GETUID body (R182). -/
def ComRun.anticollEvents (x : ComRun) (cfg : Config) : List BusEvent :=
  x.frameEvents cfg cfg.framingFull [cfg.selCl1, cfg.nvbAnticoll]

/-- The events of a failed attempt. -/
def WaitAttempt.events (cfg : Config) : WaitAttempt → List BusEvent
  | .absent x => x.requestEvents cfg
  | .unread x y => x.requestEvents cfg ++ y.anticollEvents cfg

end Sys2Proof.Machine
end

