-- ==== Sys2Proof/WellFormed.lean ====
section
/-! DEFINITION. Well-formedness of a command: its operands are within the limits of R92 and R251. An ill-formed command
decodes (R93: the operand fields never affect which command is selected) and is answered with BadOperand (R95, R251). -/

namespace Sys2Proof

/-- The "limits" column of R92, row by row. It depends on the configuration for AUTH's two variants only. -/
def Instr.wellFormed (cfg : Config) : Instr → Bool
  | .rreg a => Machine.isChipAddr a
  | .rregn a n => Machine.isChipAddr a && Machine.isLength n
  | .wreg a _ => Machine.isChipAddr a
  | .wregn a n => Machine.isChipAddr a && Machine.isLength n
  | .setbm a _ => Machine.isChipAddr a
  | .clrbm a _ => Machine.isChipAddr a
  | .hrst => true
  | .srst => true
  | .waitboot => true
  | .ant b => Machine.isOnOff b
  | .chkerr => true
  | .init => true
  | .selftest => true
  | .flush => true
  | .comm cmd n cap => Machine.isChipCommand cmd && Machine.isLength n && Machine.isLength cap
  | .ispres => true
  | .getuid => true
  | .waituid => true
  | .select => true
  | .chkbcc => true
  | .uideq => true
  | .auth v _ => Machine.isAuthVariant cfg v
  | .rdblk _ => true
  | .wrblk _ => true
  | .crc n => Machine.isLength n

end Sys2Proof
end

