-- ==== Sys2Proof/Safety.lean ====
section
/-! DEFINITION. What claims call a safe run: the invariant every step keeps, and a run of sequencer steps alone. -/

namespace Sys2Proof.Machine

/-- The chip address of an event, if it has one, is in 0x00..0x3F (R76). -/
def eventInRange : BusEvent → Bool
  | .r a _ => isChipAddr a
  | .w a _ => isChipAddr a
  | .p _ => true

/-- An output drives a chip address in range; RstPin is left to HRST and INIT (R35), that is, to `pins`. -/
def outOk (pins : Bool) : Out → Bool
  | .write a _ => isChipAddr a
  | .pin _ => pins

/-- A caller of calculateCRC whose frame, with its two CRC bytes, fits the FIFO (R77). -/
def crcCallerOk : CrcCaller → Bool
  | .crc => true
  | .send body _ => decide (body.length + 2 ≤ 64)
  | .verify _ _ => true

/-- Frames and capacities of at most 64 bytes (R77, R160) in what follows a row of outputs. -/
def afterOk : After → Bool
  | .exchange _ tx cap _ => decide (tx.length ≤ 64) && decide (cap ≤ 64)
  | .startSend _ cap _ => decide (cap ≤ 64)
  | .pollCom _ cap _ => decide (cap ≤ 64)
  | .pollCrc caller => crcCallerOk caller
  | .judge xs => decide (xs.length ≤ 64)
  | .done | .fillTimeOut | .antennaOff | .pollBoot _ | .pollFill | .capture => true

/-- Poll counters below their budgets (R130, R138, R162, R230), bulk reads of at most 64 bytes (R77), outputs in range,
in what uses an answer. A BOOT_POLL_MAX of 0 bounds no counter (DEDUCED, log entry 11). -/
def awaitOk (cfg : Config) : Await → Bool
  | .rreg => true
  | .bulk a left got _ => isChipAddr a && decide (got.length + left + 1 ≤ 64)
  | .setBits a _ rest next => isChipAddr a && rest.all (outOk false) && afterOk next
  | .clearBits a _ next => isChipAddr a && afterOk next
  | .boot k _ =>
    match cfg.bootPollMax with
    | none => true
    | some n => decide (n = 0 ∨ k < n)
  | .error (.communicate cap _) => decide (cap ≤ 64)
  | .error .chkerr => true
  | .comIrq k _ cap _ => decide (k < cfg.pollMax) && decide (cap ≤ 64)
  | .level cap _ _ => decide (cap ≤ 64)
  | .divIrq k caller => decide (k < cfg.crcPollMax) && crcCallerOk caller
  | .crcHigh caller => crcCallerOk caller
  | .crcLow _ caller => crcCallerOk caller
  | .fill k => decide (k < cfg.selftestPollMax)
  | .authStatus => true

/-- The sequencer position is one a run may reach. -/
def posOk (cfg : Config) (pins : Bool) : Pos → Bool
  | .idle => true
  | .output o rest next => outOk pins o && rest.all (outOk pins) && afterOk next
  | .input a k => isChipAddr a && awaitOk cfg k

/-- The running command is HRST or INIT, by OP (R35). -/
def drivesRstN (s : State) : Bool := s.op == Instr.opcode .hrst || s.op == Instr.opcode .init

/-- The invariant: RXLEN ≤ 64 (R29, R166), PSTATE never Halted (R28), every address driven in 0x00..0x3F (R76), RstPin
only under HRST and INIT (R35), and a position whose counters, frames and reads keep their bounds (R77, R162). -/
def State.inv (s : State) : Bool :=
  decide (s.rxlen ≤ 64) && decide (s.pstate ≠ .halted) && s.history.all eventInRange && posOk s.cfg (drivesRstN s) s.pos

/-- `n` sequencer steps, the host quiet. -/
def sequencerSteps : Nat → State → State
  | 0, s => s
  | n + 1, s => sequencerSteps n (sequencerStep s)

/-- The machine may run a command undisturbed: a legal configuration (R76), no command running, no turn scheduled. -/
def State.ready (s : State) : Prop := configOk s.cfg = true ∧ s.busy = false ∧ s.schedule = []

/-- A command issued at `s` answers a next state, and `n` steps of the machine from there end at `t`. -/
def CompletesIn (i : Instr) (s : State) (n : Nat) (t : State) : Prop :=
  ∃ s1, exec i s = .next s1 ∧ Host.Core.run Sys2Proof.core n s1 = .next t

/-! Ranges of the host address map (R63), as the rules name them. -/

/-- OP, ARG_A, ARG_B, ARG_C, TXBUF, UID, CMPUID or KEY: what a host write stores to while BUSY = 0 and loses while
BUSY = 1 (R31, R62, R252). -/
def isInputAddr (a : Byte) : Prop :=
  a.toNat ≤ 0x03 ∨ (0x40 ≤ a.toNat ∧ a.toNat ≤ 0x7F) ∨ (0xC0 ≤ a.toNat ∧ a.toNat ≤ 0xC4) ∨
    (0xC8 ≤ a.toNat ∧ a.toNat ≤ 0xCB) ∨ (0xD0 ≤ a.toNat ∧ a.toNat ≤ 0xD5)

/-- STATUS, CODE, PSTATE, RXLEN, RXBUF or CRCRES: read-only (R62). -/
def isReadOnlyAddr (a : Byte) : Prop :=
  (0x04 ≤ a.toNat ∧ a.toNat ≤ 0x07) ∨ (0x80 ≤ a.toNat ∧ a.toNat ≤ 0xBF) ∨ (0xD8 ≤ a.toNat ∧ a.toNat ≤ 0xD9)

/-- A reserved host address (R63, R64). -/
def isReservedAddr (a : Byte) : Prop :=
  (0x09 ≤ a.toNat ∧ a.toNat ≤ 0x3F) ∨ (0xC5 ≤ a.toNat ∧ a.toNat ≤ 0xC7) ∨ (0xCC ≤ a.toNat ∧ a.toNat ≤ 0xCF) ∨
    (0xD6 ≤ a.toNat ∧ a.toNat ≤ 0xD7) ∨ 0xDA ≤ a.toNat

/-- An illegal OP value, by the ranges of R94. -/
def isIllegalOp (v : Byte) : Prop :=
  v.toNat = 0x00 ∨ (0x07 ≤ v.toNat ∧ v.toNat ≤ 0x0F) ∨ (0x18 ≤ v.toNat ∧ v.toNat ≤ 0x1F) ∨
    (0x21 ≤ v.toNat ∧ v.toNat ≤ 0x2F) ∨ (0x36 ≤ v.toNat ∧ v.toNat ≤ 0x3F) ∨ (0x43 ≤ v.toNat ∧ v.toNat ≤ 0x4F) ∨
    0x51 ≤ v.toNat

end Sys2Proof.Machine
end

