-- ==== Sys2Proof/Certificates/Slice0/Obligations.lean ====
section
/-! DEFINITION. The statements for the provers, in the order of OBLIGATIONS.json: encoding; issuing a command and the
host port; reset; the machine as a whole; then each command's completion, family by family. A completion gives the whole
state after the command as an update of the state before it, so that what the update does not name is unchanged. -/

open Sys2Proof Sys2Proof.Machine

/-! Encoding. -/

/-- Every command, at every operand value, decodes from its own word, alone and with bytes after it (R90–R92, R96). -/
def Obligations.DecodeInvertsEncode : Prop :=
  ∀ (i : Instr) (rest : List Byte),
    decode (encode i) = .ok i ∧ decodeBytes (wordBytes (encode i) ++ rest) = .ok (i, rest)

/-- R93 and R94: the OP byte alone selects the command, exactly the values of R94 select none, and the operand fields
never matter to which command is selected. -/
def Obligations.OpcodeAloneSelectsCommand : Prop :=
  ∀ w : Word,
    (isIllegalOp (w.extractLsb' 0 8) → decode w = .error (.illegalOpcode (w.extractLsb' 0 8))) ∧
    (¬ isIllegalOp (w.extractLsb' 0 8) → ∃ i, decode w = .ok i ∧ i.opcode = w.extractLsb' 0 8) ∧
    (∀ (w' : Word) (i i' : Instr), w'.extractLsb' 0 8 = w.extractLsb' 0 8 → decode w = .ok i → decode w' = .ok i' →
      i'.opcode = i.opcode)

/-- R91: which byte field each command takes each operand from, for all fields; a field a command does not use is
ignored, whatever its value. -/
def Obligations.OperandFieldsOfEachCommand : Prop :=
  ∀ a b c : Byte,
    decode (c ++ b ++ a ++ (0x01 : Byte)) = .ok (.rreg a) ∧ decode (c ++ b ++ a ++ (0x02 : Byte)) = .ok (.rregn a b) ∧
    decode (c ++ b ++ a ++ (0x03 : Byte)) = .ok (.wreg a b) ∧ decode (c ++ b ++ a ++ (0x04 : Byte)) = .ok (.wregn a b) ∧
    decode (c ++ b ++ a ++ (0x05 : Byte)) = .ok (.setbm a b) ∧ decode (c ++ b ++ a ++ (0x06 : Byte)) = .ok (.clrbm a b) ∧
    decode (c ++ b ++ a ++ (0x10 : Byte)) = .ok .hrst ∧ decode (c ++ b ++ a ++ (0x11 : Byte)) = .ok .srst ∧
    decode (c ++ b ++ a ++ (0x12 : Byte)) = .ok .waitboot ∧ decode (c ++ b ++ a ++ (0x13 : Byte)) = .ok (.ant b) ∧
    decode (c ++ b ++ a ++ (0x14 : Byte)) = .ok .chkerr ∧ decode (c ++ b ++ a ++ (0x15 : Byte)) = .ok .init ∧
    decode (c ++ b ++ a ++ (0x16 : Byte)) = .ok .selftest ∧ decode (c ++ b ++ a ++ (0x17 : Byte)) = .ok .flush ∧
    decode (c ++ b ++ a ++ (0x20 : Byte)) = .ok (.comm a b c) ∧ decode (c ++ b ++ a ++ (0x30 : Byte)) = .ok .ispres ∧
    decode (c ++ b ++ a ++ (0x31 : Byte)) = .ok .getuid ∧ decode (c ++ b ++ a ++ (0x32 : Byte)) = .ok .waituid ∧
    decode (c ++ b ++ a ++ (0x33 : Byte)) = .ok .select ∧ decode (c ++ b ++ a ++ (0x34 : Byte)) = .ok .chkbcc ∧
    decode (c ++ b ++ a ++ (0x35 : Byte)) = .ok .uideq ∧ decode (c ++ b ++ a ++ (0x40 : Byte)) = .ok (.auth a b) ∧
    decode (c ++ b ++ a ++ (0x41 : Byte)) = .ok (.rdblk b) ∧ decode (c ++ b ++ a ++ (0x42 : Byte)) = .ok (.wrblk b) ∧
    decode (c ++ b ++ a ++ (0x50 : Byte)) = .ok (.crc b)

/-- A few words written out from R90, R92 and the examples of R97. -/
def Obligations.SampleWordsDecode : Prop :=
  decode 0x00003701#32 = .ok (.rreg 0x37) ∧ decode 0x000F0103#32 = .ok (.wreg 0x01 0x0F) ∧
  decode 0x40020C20#32 = .ok (.comm 0x0C 0x02 0x40) ∧ decode 0x00046040#32 = .ok (.auth 0x60 0x04) ∧
  decode 0x00040041#32 = .ok (.rdblk 0x04) ∧ decode 0x00020050#32 = .ok (.crc 0x02) ∧
  decode 0x00010013#32 = .ok (.ant 0x01) ∧ decode 0x00000030#32 = .ok .ispres

/-! Issuing a command. -/

/-- When the next turn is a host write to OP and the four bytes at host addresses 0x00 to 0x03, OP as written, decode to
`i`, the step is exec of `i` (R30, R90), whatever else the schedule holds. -/
def Obligations.StepRunsDecodedCommand : Prop :=
  ∀ (s : State) (v : Byte) (turns : List Turn) (i : Instr) (rest : List Byte),
    configOk s.cfg = true → s.schedule = .hostWrite 0x00 v :: turns →
    decodeBytes [v, s.argA, s.argB, s.argC] = .ok (i, rest) →
    step s = exec i { s with schedule := turns }

/-- An instruction word placed before the next step is the one that step runs (log entry 6), its operand fields in
ARG_A, ARG_B and ARG_C. -/
def Obligations.FetchWordRunsCommand : Prop :=
  ∀ (s : State) (nbits w : Nat) (i : Instr), configOk s.cfg = true → decodeTableWord nbits w = some i →
    step (s.withFetchWord nbits w) =
      exec i { s with
        argA := (BitVec.ofNat 32 (w % 2 ^ nbits)).extractLsb' 8 8
        argB := (BitVec.ofNat 32 (w % 2 ^ nbits)).extractLsb' 16 8
        argC := (BitVec.ofNat 32 (w % 2 ^ nbits)).extractLsb' 24 8
        pos := .idle }

/-- The four host writes an assembler emits for `i` (R97: ARG_A, ARG_B, ARG_C, then OP) issue `i`. -/
def Obligations.AssembledWritesIssueCommand : Prop :=
  ∀ (i : Instr) (s : State) (turns : List Turn), configOk s.cfg = true → s.busy = false →
    s.schedule = [.hostWrite 0x01 i.operandA, .hostWrite 0x02 i.operandB, .hostWrite 0x03 i.operandC,
      .hostWrite 0x00 i.opcode] ++ turns →
    Host.Core.run Sys2Proof.core 4 s =
      exec i { s with argA := i.operandA, argB := i.operandB, argC := i.operandC, schedule := turns }

/-- R30, acceptance: a command within its limits is accepted while BUSY = 0. OP takes the opcode; BUSY is 1 unless the
command has no bus step; CODE and RESULT keep their values while BUSY is 1; of the rest only what the command's
pseudocode does before its first primitive changes: PSTATE (R27), and RXLEN (R160, and R111 for RREGN of no bytes). No
chip transaction is part of it. That PSTATE and RXLEN hold their new values already in the accepting step is the model's
choice (DEDUCED, log entry 5): R30 gives acceptance OP and BUSY and runs the pseudocode "then". -/
def Obligations.LegalCommandIsAccepted : Prop :=
  ∀ (i : Instr) (s : State), s.busy = false → i.wellFormed s.cfg = true →
    ∃ t, exec i s = .next t ∧ t.op = i.opcode ∧
      t.busy = (match i with
        | .chkbcc | .uideq => false
        | .rregn _ n | .wregn _ n => decide (n ≠ 0)
        | _ => true) ∧
      (t.busy = true → t.code = s.code ∧ t.result = s.result) ∧
      t.pstate = (match i with
        | .hrst | .srst | .init | .selftest => .idle
        | .getuid => .uidPending
        | _ => s.pstate) ∧
      t.rxlen = (match i with
        | .comm _ _ _ | .auth _ _ => 0
        | .rregn _ n => if n = 0 then 0 else s.rxlen
        | _ => s.rxlen) ∧
      t.argA = s.argA ∧ t.argB = s.argB ∧ t.argC = s.argC ∧ t.exc = s.exc ∧ t.txbuf = s.txbuf ∧ t.rxbuf = s.rxbuf ∧
      t.uid = s.uid ∧ t.cmpuid = s.cmpuid ∧ t.key = s.key ∧ t.crcres = s.crcres ∧ t.rstN = s.rstN ∧
      t.history = s.history ∧ t.answers = s.answers ∧ t.cfg = s.cfg ∧ t.schedule = s.schedule ∧
      t.hostReads = s.hostReads ∧ t.epoch = s.epoch ∧
      ∀ a : Byte, a.toNat ≠ 0x00 → a.toNat < 0x04 ∨ 0x07 < a.toNat → hostRead a t = hostRead a s

/-- R251: an operand outside its command's limits raises BadOperand while BUSY = 0, the command does not start, and
nothing but EXC changes. -/
def Obligations.BadOperandOutsideLimits : Prop :=
  ∀ (s : State) (a b c : Byte), s.busy = false →
    (0x3F < a.toNat → ∀ i ∈ [Instr.rreg a, .rregn a b, .wreg a b, .wregn a b, .setbm a b, .clrbm a b],
      exec i s = .next { s with exc := if s.exc = none then some .badOperand else s.exc }) ∧
    (64 < b.toNat → ∀ i ∈ [Instr.rregn a b, .wregn a b, .crc b],
      exec i s = .next { s with exc := if s.exc = none then some .badOperand else s.exc }) ∧
    (0x0F < a.toNat ∨ 64 < b.toNat ∨ 64 < c.toNat →
      exec (.comm a b c) s = .next { s with exc := if s.exc = none then some .badOperand else s.exc }) ∧
    (1 < b.toNat → exec (.ant b) s = .next { s with exc := if s.exc = none then some .badOperand else s.exc }) ∧
    (a ≠ s.cfg.authKeyA → a ≠ s.cfg.authKeyB →
      exec (.auth a b) s = .next { s with exc := if s.exc = none then some .badOperand else s.exc })

/-- R31: while BUSY = 1 a host write to OP, ARG_A to ARG_C, TXBUF, UID, CMPUID or KEY is dropped with CmdWhileBusy and
nothing else changes; a write to EXC is always performed, and a write to a read-only or reserved address is ignored at
all times. -/
def Obligations.WritesWhileBusyAreDropped : Prop :=
  ∀ (s : State) (a v : Byte),
    (s.busy = true → isInputAddr a →
      hostWrite a v s = .next { s with exc := if s.exc = none then some .cmdWhileBusy else s.exc }) ∧
    (a.toNat = 0x08 → hostWrite a v s = .next { s with exc := none }) ∧
    (isReadOnlyAddr a ∨ isReservedAddr a → hostWrite a v s = .next s)

/-- R255 and R253: busy comes first, whatever the address of an input and whatever the value written; then, for a write
to OP, an illegal opcode, whatever the operands; then an operand outside its limits. One host write raises at most one
exception, which records its cause if none is recorded and changes nothing else. -/
def Obligations.ExceptionPriority : Prop :=
  ∀ (s : State) (v : Byte),
    (s.busy = true → ∀ a, isInputAddr a →
      hostWrite a v s = .next { s with exc := if s.exc = none then some .cmdWhileBusy else s.exc }) ∧
    (s.busy = false → isIllegalOp v →
      hostWrite 0x00 v s = .next { s with exc := if s.exc = none then some .illegalOpcode else s.exc }) ∧
    (s.busy = false → ∀ i rest, decodeBytes [v, s.argA, s.argB, s.argC] = .ok (i, rest) → i.wellFormed s.cfg = false →
      hostWrite 0x00 v s = .next { s with exc := if s.exc = none then some .badOperand else s.exc })

/-- R253: an exception records its cause if none is recorded, and changes nothing else. -/
def Obligations.ExceptionRecordKeepsFirst : Prop :=
  ∀ (c : Cause) (s : State), raiseException c s = { s with exc := if s.exc = none then some c else s.exc }

/-- R254: any value written to EXC clears it, busy or not, and nothing else; an exception already recorded changes
nothing in how a command is accepted or how a byte of ARG_A to ARG_C, TXBUF, UID, CMPUID or KEY is stored, and is still
recorded afterwards; a second exception while one is recorded changes nothing. -/
def Obligations.ExceptionRecordBlocksNothing : Prop :=
  ∀ (s : State) (e : Option Cause),
    (∀ v, hostWrite 0x08 v s = .next { s with exc := none }) ∧
    (∀ i : Instr, s.busy = false → i.wellFormed s.cfg = true →
      ∃ t, exec i s = .next t ∧ exec i { s with exc := e } = .next { t with exc := e }) ∧
    (∀ a v : Byte, s.busy = false → isInputAddr a → a.toNat ≠ 0x00 →
      ∃ t, hostWrite a v s = .next t ∧ hostRead a t = v ∧
        hostWrite a v { s with exc := e } = .next { t with exc := e }) ∧
    (∀ c, s.exc ≠ none → raiseException c s = s)

/-! The host port. -/

/-- From R61 and R63: the byte a host read returns, address by address; a reserved address reads as 0x00. Nothing of the
machine changes. That what was read is appended to `hostReads`, a field of the model's own, is the model's choice (DESIGN
CHOICE, log entry 13). The reserved bits of CODE, PSTATE, RXLEN and EXC: `Obligations.StatusRegisterNumbers`. -/
def Obligations.HostReadsByTheMap : Prop :=
  ∀ s : State,
    (∀ (a : Byte) (turns : List Turn), configOk s.cfg = true → s.schedule = .hostRead a :: turns →
      step s = .next { s with schedule := turns, hostReads := s.hostReads ++ [(a, hostRead a s)] }) ∧
    hostRead 0x00 s = s.op ∧ hostRead 0x01 s = s.argA ∧ hostRead 0x02 s = s.argB ∧ hostRead 0x03 s = s.argC ∧
    hostRead 0x04 s = (if s.busy then 1 else 0) + (if s.result then 2 else 0) ∧
    hostRead 0x05 s = statusByte s.code ∧ hostRead 0x06 s = pstateByte s.pstate ∧
    hostRead 0x07 s = BitVec.ofNat 8 s.rxlen ∧ hostRead 0x08 s = excByte s.exc ∧
    (∀ (i : Nat) (h : i < 64), hostRead (BitVec.ofNat 8 (0x40 + i)) s = s.txbuf[i]) ∧
    (∀ (i : Nat) (h : i < 64), hostRead (BitVec.ofNat 8 (0x80 + i)) s = s.rxbuf[i]) ∧
    (∀ (i : Nat) (h : i < 5), hostRead (BitVec.ofNat 8 (0xC0 + i)) s = s.uid[i]) ∧
    (∀ (i : Nat) (h : i < 4), hostRead (BitVec.ofNat 8 (0xC8 + i)) s = s.cmpuid[i]) ∧
    (∀ (i : Nat) (h : i < 6), hostRead (BitVec.ofNat 8 (0xD0 + i)) s = s.key[i]) ∧
    (∀ (i : Nat) (h : i < 2), hostRead (BitVec.ofNat 8 (0xD8 + i)) s = s.crcres[i]) ∧
    (∀ a : Byte, isReservedAddr a → hostRead a s = 0x00)

/-- From R22, R24, R26, R29, R32 and R61: the numbers the status registers hold, and that their reserved bits read as 0; of
RXLEN's bit 7 under the invariant, which excludes an RXLEN above 64 (DEDUCED, log entry 25). -/
def Obligations.StatusRegisterNumbers : Prop :=
  (∀ s : State,
    ((hostRead 0x04 s).getLsbD 0 = s.busy ∧ (hostRead 0x04 s).getLsbD 1 = s.result ∧ (hostRead 0x04 s).toNat < 4) ∧
    (hostRead 0x05 s).toNat ≤ 10 ∧ (hostRead 0x06 s).toNat ≤ 6 ∧ (hostRead 0x08 s).toNat ≤ 3 ∧
    (s.inv = true → (hostRead 0x07 s).toNat ≤ 64)) ∧
  [Status.ok, .protocolError, .parityError, .crcError, .collisionError, .bufferOverflow, .tempError, .writeError,
    .timeOut, .bccError, .generalStatusError].map statusByte = [0, 1, 2, 3, 4, 5, 6, 7, 8, 9, 10] ∧
  [PState.idle, .requested, .uidPending, .uidAcquired, .selected, .authenticated, .halted].map pstateByte =
    [0, 1, 2, 3, 4, 5, 6] ∧
  [none, some Cause.illegalOpcode, some .badOperand, some .cmdWhileBusy].map excByte = [0, 1, 2, 3]

/-- R62 while BUSY = 0, for every address but OP: a byte of ARG_A to ARG_C, TXBUF, UID, CMPUID or KEY is stored and reads
back, every other address reads as before, and no hidden state changes; a read-only or reserved address ignores the
write. EXC is cleared: `Obligations.ExceptionRecordBlocksNothing`. -/
def Obligations.HostWriteStoresOneByte : Prop :=
  ∀ (s : State) (a v : Byte), s.busy = false →
    (isInputAddr a → a.toNat ≠ 0x00 →
      ∃ t, hostWrite a v s = .next t ∧ hostRead a t = v ∧ (∀ b, b ≠ a → hostRead b t = hostRead b s) ∧
        t.pos = s.pos ∧ t.rstN = s.rstN ∧ t.history = s.history ∧ t.cfg = s.cfg ∧ t.schedule = s.schedule ∧
        t.answers = s.answers ∧ t.hostReads = s.hostReads ∧ t.epoch = s.epoch) ∧
    (isReadOnlyAddr a ∨ isReservedAddr a → hostWrite a v s = .next s)

/-- R64: a reserved host address reads as 0x00 and ignores writes, busy or not, and neither raises an exception. -/
def Obligations.ReservedAddressesDoNothing : Prop :=
  ∀ (s : State) (a v : Byte), isReservedAddr a → hostRead a s = 0x00 ∧ hostWrite a v s = .next s

/-! Reset. -/

/-- R281: what reset leaves. The buffers are free draws (log entry 3) and no clause is about their bytes. An idle
sequencer does nothing: it waits for a host write to OP. -/
def Obligations.ResetValues : Prop :=
  State.reset.op = 0x00 ∧ State.reset.argA = 0x00 ∧ State.reset.argB = 0x00 ∧ State.reset.argC = 0x00 ∧
  hostRead 0x04 State.reset = 0x00 ∧ hostRead 0x05 State.reset = 0x00 ∧ hostRead 0x06 State.reset = 0x00 ∧
  hostRead 0x07 State.reset = 0x00 ∧ hostRead 0x08 State.reset = 0x00 ∧ State.reset.pos = .idle ∧
  State.reset.busy = false ∧ State.reset.rstN = true ∧ State.reset.history = [] ∧
  sequencerStep State.reset = State.reset

/-- R280: at whatever point a command has reached, the reset input abandons it in one step, with no chip transaction
(nothing answers, the history is the empty one of R281) and no finish (CODE and RESULT take their reset values), and every
host register takes its reset value. The buffers are not constrained. That the configuration, the remaining schedule and the
script of answers stay is the model's choice (DESIGN CHOICE, log entry 14). -/
def Obligations.ResetInputAbandonsCommand : Prop :=
  ∀ (s : State) (turns : List Turn), configOk s.cfg = true → s.schedule = .reset :: turns →
    ∃ t, step s = .next t ∧ t.op = 0x00 ∧ t.argA = 0x00 ∧ t.argB = 0x00 ∧ t.argC = 0x00 ∧ t.busy = false ∧
      t.result = false ∧ t.code = .ok ∧ t.pstate = .idle ∧ t.rxlen = 0 ∧ t.exc = none ∧ t.pos = .idle ∧
      t.rstN = true ∧ t.history = [] ∧ t.answers = s.answers ∧ t.cfg = s.cfg ∧ t.schedule = turns

/-! The machine as a whole. -/

/-- Every step keeps the invariant, from any state that has it: RXLEN ≤ 64 (R29, R166), PSTATE never Halted (R28), every
chip address driven in 0x00..0x3F (R76), RstPin only under HRST and INIT (R35), poll counters below their budgets (R162),
frames, bulk reads and capacities of at most 64 bytes (R77). Under BOOT_POLL_MAX = 0 the boot counter has no bound, the
model's choice (DEDUCED, log entry 11), and INIT's writes of an INIT_SEQ that names REG_FIFODATA are not counted (DESIGN
CHOICE, log entry 27). -/
def Obligations.StepKeepsInvariant : Prop :=
  ∀ s t : State, s.inv = true → step s = .next t → t.inv = true

/-- The invariant holds after reset. -/
def Obligations.ResetHasInvariant : Prop := State.reset.inv = true

/-- R21, R33, R73: a sequencer step never writes OP, ARG_A to ARG_C, TXBUF, CMPUID or KEY, nor EXC. -/
def Obligations.SequencerLeavesHostInputs : Prop :=
  ∀ s : State,
    (sequencerStep s).op = s.op ∧ (sequencerStep s).argA = s.argA ∧ (sequencerStep s).argB = s.argB ∧
    (sequencerStep s).argC = s.argC ∧ (sequencerStep s).txbuf = s.txbuf ∧ (sequencerStep s).cmpuid = s.cmpuid ∧
    (sequencerStep s).key = s.key ∧ (sequencerStep s).exc = s.exc ∧ (sequencerStep s).hostReads = s.hostReads ∧
    (sequencerStep s).epoch = s.epoch

/-- R30: CODE and RESULT keep their values until the step in which BUSY becomes 0. -/
def Obligations.CodeAndResultHeldUntilFinish : Prop :=
  ∀ s : State, (sequencerStep s).busy = true → (sequencerStep s).code = s.code ∧ (sequencerStep s).result = s.result

/-- R23: whichever command finishes in a sequencer step, RESULT is 1 exactly when CODE is Ok. (Of the four commands with
a boolean of their own, ISPRES and SELFTEST finish so too; CHKBCC and UIDEQ finish at acceptance.) -/
def Obligations.ResultIsOkAtFinish : Prop :=
  ∀ s : State, s.busy = true → (sequencerStep s).busy = false →
    ((sequencerStep s).result = true ↔ (sequencerStep s).code = .ok)

/-- R13, R66, R67: while BUSY = 1 a sequencer step is exactly one chip-port event, the primitive at its position, and a
BusRead returns what the environment answers; while BUSY = 0 it does nothing at all. -/
def Obligations.OneEventPerSequencerStep : Prop :=
  ∀ s : State,
    (s.busy = false → sequencerStep s = s) ∧
    (∀ a v rest next, s.pos = .output (.write a v) rest next →
      (sequencerStep s).history = s.history ++ [.w a v] ∧ (sequencerStep s).answers = s.answers ∧
        (sequencerStep s).rstN = s.rstN) ∧
    (∀ l rest next, s.pos = .output (.pin l) rest next →
      (sequencerStep s).history = s.history ++ [.p l] ∧ (sequencerStep s).answers = s.answers ∧
        (sequencerStep s).rstN = l) ∧
    (∀ a k, s.pos = .input a k →
      (sequencerStep s).history = s.history ++ [.r a (answerTo a s)] ∧
        (sequencerStep s).answers = s.answers.tail ∧ (sequencerStep s).rstN = s.rstN)

/-- R70, R73: host accesses that interleave with a running command change no chip-port event and nothing of the command.
However reads and writes of the host port are scheduled among the sequencer's steps, as long as BUSY = 1 before each turn,
the state is the one those sequencer steps alone give, but for EXC, what the host has read, and the schedule. The last
turn may be the step that finishes the command. -/
def Obligations.HostAccessesNeverChangeARunningCommand : Prop :=
  ∀ (turns : List Turn) (s : State), configOk s.cfg = true → s.schedule = turns → Turn.reset ∉ turns →
    (∀ k, k < turns.length → (sequencerSteps ((turns.take k).count .sequencer) s).busy = true) →
    ∃ e reads, Host.Core.run Sys2Proof.core turns.length s =
      .next { sequencerSteps (turns.count .sequencer) s with exc := e, hostReads := reads, schedule := [] }

/-- R35: under any command but HRST (opcode 0x10) and INIT (0x15), a sequencer step leaves RST_N alone, and issuing a
command never drives it. -/
def Obligations.RstNOnlyByHrstAndInit : Prop :=
  (∀ s : State, s.inv = true → s.op ≠ 0x10 → s.op ≠ 0x15 → (sequencerStep s).rstN = s.rstN) ∧
  (∀ (i : Instr) (s t : State), exec i s = .next t → t.rstN = s.rstN)

/-- R76: a configuration with a register parameter outside 0x00..0x3F is refused. The second clause is the model's
choice (DEDUCED from R77, log entries 10 and 24): so is one whose SELFTEST would write more than 64 bytes to the FIFO
between flushes, SELFTEST_ZEROS and one more. -/
def Obligations.IllFormedConfigIsRefused : Prop :=
  ∀ s : State,
    ((∃ a ∈ [s.cfg.regCommand, s.cfg.regComIrq, s.cfg.regDivIrq, s.cfg.regError, s.cfg.regAuthStatus, s.cfg.regFifoData,
        s.cfg.regFifoLevel, s.cfg.regBitFraming, s.cfg.regTxControl, s.cfg.regCrcResultH, s.cfg.regCrcResultL,
        s.cfg.regAutoTest], 0x3F < a.toNat) →
      step s = .refused .illFormedConfig) ∧
    (64 < s.cfg.selftestZeros + 1 → step s = .refused .illFormedConfig)

/-- R187, and more widely R27: no command reads PSTATE. With any other PSTATE, issuing a command and every sequencer step do
the same to all of the rest of the state, and to PSTATE: both write it the same value, or both leave it. -/
def Obligations.NoCommandReadsPstate : Prop :=
  ∀ (s : State) (p : PState),
    (∀ i : Instr, ∃ t q, exec i s = .next t ∧ exec i { s with pstate := p } = .next { t with pstate := q } ∧
      (q = t.pstate ∨ t.pstate = s.pstate ∧ q = p)) ∧
    ∃ q, sequencerStep { s with pstate := p } = { sequencerStep s with pstate := q } ∧
      (q = (sequencerStep s).pstate ∨ (sequencerStep s).pstate = s.pstate ∧ q = p)

/-! Register bus commands. -/

/-- R110, RREG. -/
def Obligations.RregReadsOneRegister : Prop :=
  ∀ (a : Byte) (s : State),
    (a.toNat ≤ 0x3F → s.ready →
      CompletesIn (.rreg a) s 1
        { s with op := 0x01, rxbuf := s.rxbuf.set 0 (answerTo a s), rxlen := 1, code := .ok, result := true,
                 history := s.history ++ [.r a (answerTo a s)], answers := s.answers.tail }) ∧
    (0x3F < a.toNat → s.busy = false → exec (.rreg a) s = .next (raiseException .badOperand s))

/-- R111, RREGN: RXBUF[i] is the i-th answer for i below B and keeps its value for the rest; with B = 0 no transaction and
RXLEN = 0. -/
def Obligations.RregnReadsInOrder : Prop :=
  ∀ (a n : Byte) (s : State),
    (∀ (xs ys : List Byte) (b : Vector Byte 64), a.toNat ≤ 0x3F → n.toNat ≤ 64 → s.ready → s.answers = xs ++ ys →
      xs.length = n.toNat → (∀ (i : Nat) (h : i < 64), b[i] = if hx : i < xs.length then xs[i] else s.rxbuf[i]) →
      CompletesIn (.rregn a n) s n.toNat
        { s with op := 0x02, rxbuf := b, rxlen := n.toNat, code := .ok, result := true,
                 history := s.history ++ xs.map (.r a), answers := ys }) ∧
    (0x3F < a.toNat ∨ 64 < n.toNat → s.busy = false → exec (.rregn a n) s = .next (raiseException .badOperand s))

/-- R112, WREG. -/
def Obligations.WregWritesOneRegister : Prop :=
  ∀ (a v : Byte) (s : State),
    (a.toNat ≤ 0x3F → s.ready →
      CompletesIn (.wreg a v) s 1
        { s with op := 0x03, code := .ok, result := true, history := s.history ++ [.w a v] }) ∧
    (0x3F < a.toNat → s.busy = false → exec (.wreg a v) s = .next (raiseException .badOperand s))

/-- R113, WREGN: TXBUF[0] first; with B = 0 no transaction. -/
def Obligations.WregnWritesTxbufInOrder : Prop :=
  ∀ (a n : Byte) (s : State),
    (a.toNat ≤ 0x3F → n.toNat ≤ 64 → s.ready →
      CompletesIn (.wregn a n) s n.toNat
        { s with op := 0x04, code := .ok, result := true,
                 history := s.history ++ (s.txbuf.toList.take n.toNat).map (.w a) }) ∧
    (0x3F < a.toNat ∨ 64 < n.toNat → s.busy = false → exec (.wregn a n) s = .next (raiseException .badOperand s))

/-- R114 and R115, SETBM and CLRBM: both transactions always happen. -/
def Obligations.SetbmAndClrbmModifyARegister : Prop :=
  ∀ (a m v : Byte) (s : State), v = answerTo a s →
    (a.toNat ≤ 0x3F → s.ready →
      CompletesIn (.setbm a m) s 2
        { s with op := 0x05, code := .ok, result := true, history := s.history ++ [.r a v, .w a (v ||| m)],
                 answers := s.answers.tail } ∧
      CompletesIn (.clrbm a m) s 2
        { s with op := 0x06, code := .ok, result := true, history := s.history ++ [.r a v, .w a (v &&& ~~~m)],
                 answers := s.answers.tail }) ∧
    (0x3F < a.toNat → s.busy = false →
      exec (.setbm a m) s = .next (raiseException .badOperand s) ∧
      exec (.clrbm a m) s = .next (raiseException .badOperand s))

/-- R74 and 95_test_vectors.md V-L2: the 64 writes to the FIFO are TXBUF's bytes in order, and where the environment
answers the 64 reads that follow with those bytes (a loopback), they are in RXBUF in order. -/
def Obligations.FifoLoopbackRoundTrip : Prop :=
  ∀ (s : State) (ys : List Byte), s.ready → s.answers = s.txbuf.toList ++ ys →
    ∃ t u, CompletesIn (.wregn s.cfg.regFifoData 64) s 64 t ∧ t.busy = false ∧
      t.history = s.history ++ s.txbuf.toList.map (.w s.cfg.regFifoData) ∧ t.answers = s.answers ∧
      CompletesIn (.rregn s.cfg.regFifoData 64) t 64 u ∧ u.busy = false ∧
      u.history = t.history ++ s.txbuf.toList.map (.r s.cfg.regFifoData) ∧ u.answers = ys ∧
      u.rxbuf = s.txbuf ∧ u.txbuf = s.txbuf ∧ u.rxlen = 64 ∧ u.code = .ok

/-! Reader lifecycle commands. -/

/-- R131, WAITBOOT, with R130: on every way the boot wait can end. `BootRun.fits` takes in BOOT_POLL_MAX = 0; that the
boot wait then never times out is the model's choice (DEDUCED, log entry 11). -/
def Obligations.WaitbootWaitsForBoot : Prop :=
  ∀ (x : BootRun) (ys : List Byte) (s : State), s.ready → x.fits s.cfg → s.answers = x.answers ++ ys →
    CompletesIn .waitboot s (x.events s.cfg).length
      { s with op := 0x12, code := x.status, result := decide (x.status = .ok),
               history := s.history ++ x.events s.cfg, answers := ys }

/-- From R132, HRST: the reset pulse, then the boot wait, on every way it can end. That a boot wait under
BOOT_POLL_MAX = 0, which `BootRun.fits` takes in, never times out is the model's choice (DEDUCED, log entry 11). -/
def Obligations.HrstPulsesRstN : Prop :=
  ∀ (x : BootRun) (ys : List Byte) (s : State), s.ready → x.fits s.cfg → s.answers = x.answers ++ ys →
    CompletesIn .hrst s (2 + (x.events s.cfg).length)
      { s with op := 0x10, pstate := .idle, rstN := true, code := x.status, result := decide (x.status = .ok),
               history := s.history ++ [.p false, .p true] ++ x.events s.cfg, answers := ys }

/-- From R133, SRST: the soft-reset command, then the boot wait, on every way it can end. That a boot wait under
BOOT_POLL_MAX = 0, which `BootRun.fits` takes in, never times out is the model's choice (DEDUCED, log entry 11). -/
def Obligations.SrstCommandsSoftReset : Prop :=
  ∀ (x : BootRun) (ys : List Byte) (s : State), s.ready → x.fits s.cfg → s.answers = x.answers ++ ys →
    CompletesIn .srst s (1 + (x.events s.cfg).length)
      { s with op := 0x11, pstate := .idle, code := x.status, result := decide (x.status = .ok),
               history := s.history ++ [.w s.cfg.regCommand (s.cfg.cmdSoftReset.setWidth 8)] ++ x.events s.cfg,
               answers := ys }

/-- R130 and R291 under BOOT_POLL_MAX = ∞: however many polls show the M_POWERDOWN bit set, the command that waits is
still running, with CODE and RESULT as they were. -/
def Obligations.BootWaitNeverGivesUp : Prop :=
  ∀ (vs ys : List Byte) (s : State), s.ready → s.cfg.bootPollMax = none → (∀ v ∈ vs, v &&& s.cfg.mPowerDown ≠ 0) →
    s.answers = vs ++ ys →
    ∀ p ∈ [(Instr.waitboot, 0), (.hrst, 2), (.srst, 1), (.init, 2), (.selftest, 1)],
      ∃ s1 t, exec p.1 s = .next s1 ∧ Host.Core.run Sys2Proof.core (p.2 + vs.length) s1 = .next t ∧ t.busy = true ∧
        t.code = s.code ∧ t.result = s.result ∧ t.answers = ys

/-- R136, ANT. -/
def Obligations.AntSwitchesDrivers : Prop :=
  ∀ (on : Byte) (s : State),
    (on = 1 → s.ready →
      CompletesIn (.ant on) s 2
        { s with op := 0x13, code := .ok, result := true,
                 history := s.history ++ [.r s.cfg.regTxControl (answerTo s.cfg.regTxControl s),
                   .w s.cfg.regTxControl (answerTo s.cfg.regTxControl s ||| s.cfg.mAntenna)],
                 answers := s.answers.tail }) ∧
    (on = 0 → s.ready →
      CompletesIn (.ant on) s 2
        { s with op := 0x13, pstate := .idle, code := .ok, result := true,
                 history := s.history ++ [.r s.cfg.regTxControl (answerTo s.cfg.regTxControl s),
                   .w s.cfg.regTxControl (answerTo s.cfg.regTxControl s &&& ~~~s.cfg.mAntenna)],
                 answers := s.answers.tail }) ∧
    (1 < on.toNat → s.busy = false → exec (.ant on) s = .next (raiseException .badOperand s))

/-- R134 and R135, CHKERR: the status by the fixed priority, other bits ignored. -/
def Obligations.ChkerrDecodesByPriority : Prop :=
  ∀ s : State, s.ready →
    ∀ e c, e = answerTo s.cfg.regError s →
    c = (if e &&& s.cfg.eBufOvfl ≠ 0 then Status.bufferOverflow
      else if e &&& s.cfg.eCrc ≠ 0 then .crcError
      else if e &&& s.cfg.eParity ≠ 0 then .parityError
      else if e &&& s.cfg.eProtocol ≠ 0 then .protocolError
      else if e &&& s.cfg.eColl ≠ 0 then .collisionError
      else if e &&& s.cfg.eTemp ≠ 0 then .tempError
      else .ok) →
    CompletesIn .chkerr s 1
      { s with op := 0x14, code := c, result := decide (c = .ok), history := s.history ++ [.r s.cfg.regError e],
               answers := s.answers.tail }

/-- From R137, INIT: hard reset, boot wait; if it timed out, that code; else antenna on and the writes of INIT_SEQ in
list order. That a boot wait under BOOT_POLL_MAX = 0, which `BootRun.fits` takes in, never times out is the model's choice
(DEDUCED, log entry 11); so is that an INIT_SEQ may write REG_FIFODATA, with no flush and without R77's bound (DESIGN
CHOICE, log entry 27). -/
def Obligations.InitConfiguresTheChip : Prop :=
  ∀ (x : BootRun) (v : Byte) (ys : List Byte) (s : State), s.ready → x.fits s.cfg →
    (x.status ≠ .ok → s.answers = x.answers ++ ys →
      CompletesIn .init s (2 + (x.events s.cfg).length)
        { s with op := 0x15, pstate := .idle, rstN := true, code := x.status, result := false,
                 history := s.history ++ [.p false, .p true] ++ x.events s.cfg, answers := ys }) ∧
    (x.status = .ok → s.answers = x.answers ++ v :: ys →
      CompletesIn .init s (2 + (x.events s.cfg).length + 2 + s.cfg.initSeq.length)
        { s with op := 0x15, pstate := .idle, rstN := true, code := .ok, result := true,
                 history := s.history ++ [.p false, .p true] ++ x.events s.cfg ++
                   [.r s.cfg.regTxControl v, .w s.cfg.regTxControl (v ||| s.cfg.mAntenna)] ++
                   s.cfg.initSeq.map (fun e => .w e.1 e.2),
                 answers := ys })

/-- From R138, SELFTEST, on every path: the boot wait times out; SELFTEST_POLL_MAX reads of the FIFO level all show fewer
than 64 bytes (RXBUF and RXLEN unchanged); the FIFO fills and its 64 bytes are captured in RXBUF, and the command passes
exactly on a match of all of them with REF_V1 or REF_V2. That a boot wait under
BOOT_POLL_MAX = 0, which `BootRun.fits` takes in, never times out is the model's choice (DEDUCED, log entry 11). -/
def Obligations.SelftestComparesTheCapture : Prop :=
  ∀ (x : BootRun) (ys : List Byte) (s : State) (es : List BusEvent), s.ready → x.fits s.cfg →
    es = [.w s.cfg.regCommand (s.cfg.cmdSoftReset.setWidth 8)] ++ x.events s.cfg →
    (x.status ≠ .ok → s.answers = x.answers ++ ys →
      CompletesIn .selftest s es.length
        { s with op := 0x16, pstate := .idle, code := .timeOut, result := false, history := s.history ++ es,
                 answers := ys }) ∧
    (x.status = .ok → ∀ (misses : List Byte) (fs : List BusEvent), (∀ v ∈ misses, fifoFull s.cfg v = false) →
      (misses.length = s.cfg.selftestPollMax → s.answers = x.answers ++ misses ++ ys →
        fs = es ++ selftestLoadEvents s.cfg ++ misses.map (.r s.cfg.regFifoLevel) ++
          [.w s.cfg.regCommand (s.cfg.cmdIdle.setWidth 8), .w s.cfg.regAutoTest s.cfg.autoTestOff] →
        CompletesIn .selftest s fs.length
          { s with op := 0x16, pstate := .idle, code := .timeOut, result := false, history := s.history ++ fs,
                   answers := ys }) ∧
      (misses.length < s.cfg.selftestPollMax → ∀ (full : Byte) (xs : List Byte) (pass : Bool),
        fifoFull s.cfg full = true → xs.length = 64 → s.answers = x.answers ++ misses ++ full :: xs ++ ys →
        pass = (xs == s.cfg.refV1.toList || xs == s.cfg.refV2.toList) →
        fs = es ++ selftestLoadEvents s.cfg ++ (misses ++ [full]).map (.r s.cfg.regFifoLevel) ++
          [.w s.cfg.regCommand (s.cfg.cmdIdle.setWidth 8)] ++ xs.map (.r s.cfg.regFifoData) ++
          [.w s.cfg.regAutoTest s.cfg.autoTestOff] →
        CompletesIn .selftest s fs.length
          { s with op := 0x16, pstate := .idle, rxbuf := storeBytes xs s.rxbuf, rxlen := 64,
                   code := if pass then .ok else .generalStatusError, result := pass,
                   history := s.history ++ fs, answers := ys }))

/-- R139, FLUSH. -/
def Obligations.FlushWritesTheFlushBit : Prop :=
  ∀ s : State, s.ready →
    CompletesIn .flush s 1
      { s with op := 0x17, code := .ok, result := true,
               history := s.history ++ [.w s.cfg.regFifoLevel s.cfg.mFlush] }

/-! Transceiver. -/

/-- R164, COMM, with R160 to R163: on every way communicate can end (the poll budget, the timer bit, an error, a
read-back of min(level, capacity) bytes). -/
def Obligations.CommRunsOneExchange : Prop :=
  ∀ (cmd n cap : Byte) (s : State),
    (∀ (x : ComRun) (ys : List Byte), cmd.toNat ≤ 0x0F → n.toNat ≤ 64 → cap.toNat ≤ 64 → s.ready →
      x.fits s.cfg (cmd.setWidth 4) cap.toNat → s.answers = x.answers s.cfg (cmd.setWidth 4) ++ ys →
      ∀ es, es = x.events s.cfg (cmd.setWidth 4) (s.txbuf.toList.take n.toNat) →
      CompletesIn (.comm cmd n cap) s es.length
        { s with op := 0x20, rxbuf := storeBytes x.data s.rxbuf, rxlen := x.data.length, code := x.status s.cfg,
                 result := decide (x.status s.cfg = .ok), history := s.history ++ es, answers := ys }) ∧
    (0x0F < cmd.toNat ∨ 64 < n.toNat ∨ 64 < cap.toNat → s.busy = false →
      exec (.comm cmd n cap) s = .next (raiseException .badOperand s))

/-- R167: the number of transactions of an exchange that sends t bytes and completes on poll read j, with a read-back of
n bytes or an error, for a transceive and for another chip command: after exactly that many steps and events, and no
fewer, the command has finished. -/
def Obligations.ExchangeLength : Prop :=
  ∀ (cmd n cap : Byte) (x : ComRun) (ys : List Byte) (s : State) (t j : Nat), cmd.toNat ≤ 0x0F → n.toNat ≤ 64 →
    cap.toNat ≤ 64 → s.ready → x.fits s.cfg (cmd.setWidth 4) cap.toNat →
    s.answers = x.answers s.cfg (cmd.setWidth 4) ++ ys → t = n.toNat → j = x.misses.length + 1 →
    (∀ irq e level data, x.ending = .readBack irq e level data →
      ∃ k u, CompletesIn (.comm cmd n cap) s k u ∧ u.busy = false ∧ u.history.length = s.history.length + k ∧
        k = 3 + t + 1 + (if cmd.setWidth 4 = s.cfg.cmdTransceive then 2 else 0) + j + 1 + 1 + data.length) ∧
    (∀ irq e, x.ending = .failed irq e →
      ∃ k u, CompletesIn (.comm cmd n cap) s k u ∧ u.busy = false ∧ u.history.length = s.history.length + k ∧
        k = 3 + t + 1 + (if cmd.setWidth 4 = s.cfg.cmdTransceive then 2 else 0) + j + 1)

/-! Card discovery and anti-collision. -/

/-- R181, ISPRES, on every way its exchange can end. -/
def Obligations.IspresReportsPresence : Prop :=
  ∀ (x : ComRun) (ys : List Byte) (s : State) (r : Bool), s.ready → x.fitsFrame s.cfg →
    s.answers = x.frameAnswers s.cfg ++ ys →
    r = (decide (x.status s.cfg = .ok) && decide (x.data.length = s.cfg.atqaLen)) →
    ∀ es, es = x.frameEvents s.cfg s.cfg.framingReq [s.cfg.piccReq] →
    CompletesIn .ispres s es.length
      { s with op := 0x30, rxbuf := storeBytes x.data s.rxbuf, rxlen := x.data.length,
               pstate := if r then .requested else .idle,
               code := if r then .ok else if x.status s.cfg ≠ .ok then x.status s.cfg else .generalStatusError,
               result := r, history := s.history ++ es, answers := ys }

/-- R182 and R183, GETUID, on every way its exchange can end: at most five bytes are copied, the rest of UID keeps its
values, and only a five-byte Ok response with a valid BCC is Ok. -/
def Obligations.GetuidChecksTheUid : Prop :=
  ∀ (x : ComRun) (ys : List Byte) (s : State) (u : Vector Byte 5) (r : Status), s.ready → x.fitsFrame s.cfg →
    s.answers = x.frameAnswers s.cfg ++ ys → u = storeBytes (x.data.take 5) s.uid →
    r = (if x.status s.cfg ≠ .ok then x.status s.cfg
      else if x.data.length ≠ 5 then .bccError
      else if u[4] ≠ u[0] ^^^ u[1] ^^^ u[2] ^^^ u[3] then .bccError
      else .ok) →
    ∀ es, es = x.frameEvents s.cfg s.cfg.framingFull [s.cfg.selCl1, s.cfg.nvbAnticoll] →
    CompletesIn .getuid s es.length
      { s with op := 0x31, rxbuf := storeBytes x.data s.rxbuf, rxlen := x.data.length, uid := u,
               pstate := if r = .ok then .uidAcquired else .idle, code := r, result := decide (r = .ok),
               history := s.history ++ es, answers := ys }

/-- R184, WAITUID: after any number of failed attempts, a card with a valid UID ends it with Ok and that UID. RXBUF holds
what the attempts' responses stored, in their order, over what was there. -/
def Obligations.WaituidFinishesOnAValidUid : Prop :=
  ∀ (attempts : List WaitAttempt) (x y : ComRun) (ys : List Byte) (s : State), s.ready →
    (∀ a ∈ attempts, a.fits s.cfg) → x.fitsFrame s.cfg → x.present s.cfg → y.fitsFrame s.cfg → y.readsUid s.cfg →
    s.answers = attempts.flatMap (WaitAttempt.answers s.cfg) ++ x.frameAnswers s.cfg ++ y.frameAnswers s.cfg ++ ys →
    ∀ es, es = attempts.flatMap (WaitAttempt.events s.cfg) ++ x.requestEvents s.cfg ++ y.anticollEvents s.cfg →
    ∀ b, b = storeBytes y.data (storeBytes x.data (attempts.foldl WaitAttempt.received s.rxbuf)) →
    CompletesIn .waituid s es.length
        { s with op := 0x32, rxbuf := b, rxlen := 5, uid := storeBytes y.data s.uid, pstate := .uidAcquired,
                 code := .ok, result := true, history := s.history ++ es, answers := ys } ∧
      firstBytes 5 b = y.data

/-- R184 and R291: however many attempts fail, WAITUID is still running: CODE and RESULT are as they were, PSTATE is Idle
after a failure, RXBUF is what the attempts' responses stored, and the next attempt has begun. That PSTATE is seen Idle in
the step that ends an attempt is the model's choice (DEDUCED, log entry 5), and so is the form of the position (DEDUCED,
log entry 26). -/
def Obligations.WaituidRetriesWithoutBound : Prop :=
  ∀ (attempts : List WaitAttempt) (ys : List Byte) (s : State), s.ready → (∀ a ∈ attempts, a.fits s.cfg) →
    s.answers = attempts.flatMap (WaitAttempt.answers s.cfg) ++ ys →
    ∃ s1 t, exec .waituid s = .next s1 ∧
      Host.Core.run Sys2Proof.core (attempts.flatMap (WaitAttempt.events s.cfg)).length s1 = .next t ∧
      t.pos = .output (.write s.cfg.regBitFraming s.cfg.framingReq) []
        (.exchange s.cfg.cmdTransceive [s.cfg.piccReq] 64 .waitPresent) ∧
      t.code = s.code ∧ t.result = s.result ∧ t.answers = ys ∧ (attempts ≠ [] → t.pstate = .idle) ∧
      t.rxbuf = attempts.foldl WaitAttempt.received s.rxbuf ∧
      t.history = s.history ++ attempts.flatMap (WaitAttempt.events s.cfg)

/-- R185 and R186, SELECT, on every path: the frame's CRC times out; the exchange fails or its length is wrong; the
response's CRC is computed and compared. Under a configuration with SAK_LEN below 3, where R234's condition k + 2 ≤ RXLEN
fails, that RXBUF[1..2] are compared as they stand is the model's choice (DEDUCED, log entry 16). -/
def Obligations.SelectSelectsTheCard : Prop :=
  ∀ (f : List Byte) (x : CrcRun) (ys : List Byte) (s : State), s.ready → x.fits s.cfg →
    f = [s.cfg.selCl1, s.cfg.nvbSelect, s.uid[0], s.uid[1], s.uid[2], s.uid[3],
      s.uid[0] ^^^ s.uid[1] ^^^ s.uid[2] ^^^ s.uid[3]] →
    (x.status ≠ .ok → s.answers = x.answers ++ ys →
      CompletesIn .select s (x.events s.cfg f).length
        { s with op := 0x33, pstate := .idle, code := .timeOut, result := false,
                 history := s.history ++ x.events s.cfg f, answers := ys }) ∧
    (x.status = .ok → ∀ (y : ComRun) (es : List BusEvent) (b : Vector Byte 64), y.fitsFrame s.cfg →
      es = x.events s.cfg f ++ y.frameEvents s.cfg s.cfg.framingFull (f ++ (x.result s.crcres).toList) →
      b = storeBytes y.data s.rxbuf →
      (y.status s.cfg ≠ .ok ∨ y.data.length ≠ s.cfg.sakLen → s.answers = x.answers ++ y.frameAnswers s.cfg ++ ys →
        CompletesIn .select s es.length
          { s with op := 0x33, crcres := x.result s.crcres, rxbuf := b, rxlen := y.data.length, pstate := .idle,
                   code := if y.status s.cfg ≠ .ok then y.status s.cfg else .generalStatusError, result := false,
                   history := s.history ++ es, answers := ys }) ∧
      (y.status s.cfg = .ok → y.data.length = s.cfg.sakLen → ∀ (z : CrcRun) (c : Status), z.fits s.cfg →
        s.answers = x.answers ++ y.frameAnswers s.cfg ++ z.answers ++ ys →
        c = (if z.status ≠ .ok then .timeOut
          else if z.result s.crcres = #v[b[1], b[2]] then .ok else .crcError) →
        CompletesIn .select s (es.length + (z.events s.cfg [b[0]]).length)
          { s with op := 0x33, crcres := z.result (x.result s.crcres), rxbuf := b, rxlen := y.data.length,
                   pstate := if c = .ok then .selected else .idle, code := c, result := decide (c = .ok),
                   history := s.history ++ es ++ z.events s.cfg [b[0]], answers := ys }))

/-- R188 and R189, CHKBCC: it finishes in the step that accepts it. -/
def Obligations.ChkbccChecksTheUid : Prop :=
  ∀ (s : State) (r : Bool), s.busy = false →
    r = decide (s.uid[4] = s.uid[0] ^^^ s.uid[1] ^^^ s.uid[2] ^^^ s.uid[3]) →
    exec .chkbcc s = .next { s with op := 0x34, code := if r then .ok else .bccError, result := r }

/-- R189: changing any single bit of a valid UID makes it invalid. -/
def Obligations.BccDetectsSingleBitErrors : Prop :=
  ∀ (u : Vector Byte 5) (i b : Nat) (hi : i < 5), b < 8 → uidValid u = true →
    uidValid (u.set i (u[i] ^^^ (1 <<< b))) = false

/-- R190, UIDEQ: it finishes in the step that accepts it; CODE is always Ok. -/
def Obligations.UideqComparesFourBytes : Prop :=
  ∀ s : State, s.busy = false →
    exec .uideq s = .next { s with op := 0x35, code := .ok, result := decide (s.uid.toList.take 4 = s.cmpuid.toList) }

/-! Authentication and block read/write. -/

/-- R210, AUTH, on every path. -/
def Obligations.AuthReportsTheCryptoUnit : Prop :=
  ∀ (variant block : Byte) (s : State),
    (∀ (x : ComRun) (ys : List Byte) (es : List BusEvent), variant = s.cfg.authKeyA ∨ variant = s.cfg.authKeyB →
      s.ready → x.fits s.cfg s.cfg.cmdMfAuthent 64 →
      es = x.events s.cfg s.cfg.cmdMfAuthent
        ([variant, block] ++ s.key.toList ++ [s.uid[0], s.uid[1], s.uid[2], s.uid[3]]) →
      (x.status s.cfg ≠ .ok → s.answers = x.answers s.cfg s.cfg.cmdMfAuthent ++ ys →
        CompletesIn (.auth variant block) s es.length
          { s with op := 0x40, rxbuf := storeBytes x.data s.rxbuf, rxlen := x.data.length, pstate := .idle,
                   code := x.status s.cfg, result := false, history := s.history ++ es, answers := ys }) ∧
      (x.status s.cfg = .ok → ∀ v on, s.answers = x.answers s.cfg s.cfg.cmdMfAuthent ++ v :: ys →
        on = decide (v &&& s.cfg.mCrypto1On ≠ 0) →
        CompletesIn (.auth variant block) s (es.length + 1)
          { s with op := 0x40, rxbuf := storeBytes x.data s.rxbuf, rxlen := x.data.length,
                   pstate := if on then .authenticated else .idle,
                   code := if on then .ok else .generalStatusError, result := on,
                   history := s.history ++ es ++ [.r s.cfg.regAuthStatus v], answers := ys })) ∧
    (variant ≠ s.cfg.authKeyA → variant ≠ s.cfg.authKeyB → s.busy = false →
      exec (.auth variant block) s = .next (raiseException .badOperand s))

/-- R212, RDBLK, with R211 and R234, on every path: the request's CRC times out; the exchange fails or its length is
wrong; the response's CRC is computed and compared. PSTATE is unchanged on Ok. Under a configuration with READ_RESP_LEN
below 18, where R234's condition k + 2 ≤ RXLEN fails, that RXBUF[16..17] are compared as they stand is the model's choice
(DEDUCED, log entry 16). -/
def Obligations.RdblkReadsABlock : Prop :=
  ∀ (block : Byte) (x : CrcRun) (ys : List Byte) (s : State), s.ready → x.fits s.cfg →
    (x.status ≠ .ok → s.answers = x.answers ++ ys →
      CompletesIn (.rdblk block) s (x.events s.cfg [s.cfg.mfRead, block]).length
        { s with op := 0x41, pstate := .idle, code := .timeOut, result := false,
                 history := s.history ++ x.events s.cfg [s.cfg.mfRead, block], answers := ys }) ∧
    (x.status = .ok → ∀ (y : ComRun) (es : List BusEvent) (b : Vector Byte 64), y.fitsFrame s.cfg →
      es = x.events s.cfg [s.cfg.mfRead, block] ++
        y.frameEvents s.cfg s.cfg.framingFull ([s.cfg.mfRead, block] ++ (x.result s.crcres).toList) →
      b = storeBytes y.data s.rxbuf →
      (y.status s.cfg ≠ .ok ∨ y.data.length ≠ s.cfg.readRespLen →
        s.answers = x.answers ++ y.frameAnswers s.cfg ++ ys →
        CompletesIn (.rdblk block) s es.length
          { s with op := 0x41, crcres := x.result s.crcres, rxbuf := b, rxlen := y.data.length, pstate := .idle,
                   code := if y.status s.cfg ≠ .ok then y.status s.cfg else .generalStatusError, result := false,
                   history := s.history ++ es, answers := ys }) ∧
      (y.status s.cfg = .ok → y.data.length = s.cfg.readRespLen → ∀ (z : CrcRun) (c : Status), z.fits s.cfg →
        s.answers = x.answers ++ y.frameAnswers s.cfg ++ z.answers ++ ys →
        c = (if z.status ≠ .ok then .timeOut
          else if z.result s.crcres = #v[b[16], b[17]] then .ok else .crcError) →
        CompletesIn (.rdblk block) s (es.length + (z.events s.cfg (b.toList.take 16)).length)
          { s with op := 0x41, crcres := z.result (x.result s.crcres), rxbuf := b, rxlen := y.data.length,
                   pstate := if c = .ok then s.pstate else .idle, code := c, result := decide (c = .ok),
                   history := s.history ++ es ++ z.events s.cfg (b.toList.take 16), answers := ys }))

/-- R213, WRBLK, on every path. The command frame's CRC times out; its exchange fails or is not acknowledged, and the
data are never sent; it is acknowledged and TXBUF[0..15] is sent with its CRC, which can end in the same ways. An
acknowledge is one byte whose low nibble is MF_ACK. PSTATE is unchanged on Ok. -/
def Obligations.WrblkWritesABlock : Prop :=
  ∀ (block : Byte) (x : CrcRun) (ys : List Byte) (s : State), s.ready → x.fits s.cfg →
    (x.status ≠ .ok → s.answers = x.answers ++ ys →
      CompletesIn (.wrblk block) s (x.events s.cfg [s.cfg.mfWrite, block]).length
        { s with op := 0x42, pstate := .idle, code := .timeOut, result := false,
                 history := s.history ++ x.events s.cfg [s.cfg.mfWrite, block], answers := ys }) ∧
    (x.status = .ok → ∀ (y : ComRun) (es : List BusEvent), y.fitsFrame s.cfg →
      es = x.events s.cfg [s.cfg.mfWrite, block] ++
        y.frameEvents s.cfg s.cfg.framingFull ([s.cfg.mfWrite, block] ++ (x.result s.crcres).toList) →
      (y.status s.cfg ≠ .ok ∨ (¬ ∃ d, y.data = [d] ∧ d &&& 0x0F = s.cfg.mfAck.setWidth 8) →
        s.answers = x.answers ++ y.frameAnswers s.cfg ++ ys →
        CompletesIn (.wrblk block) s es.length
          { s with op := 0x42, crcres := x.result s.crcres, rxbuf := storeBytes y.data s.rxbuf,
                   rxlen := y.data.length, pstate := .idle,
                   code := if y.status s.cfg ≠ .ok then y.status s.cfg else .writeError, result := false,
                   history := s.history ++ es, answers := ys }) ∧
      (y.status s.cfg = .ok → ∀ d, y.data = [d] → d &&& 0x0F = s.cfg.mfAck.setWidth 8 → ∀ (x' : CrcRun) (fs : List BusEvent),
        x'.fits s.cfg → fs = es ++ x'.events s.cfg (s.txbuf.toList.take 16) →
        (x'.status ≠ .ok → s.answers = x.answers ++ y.frameAnswers s.cfg ++ x'.answers ++ ys →
          CompletesIn (.wrblk block) s fs.length
            { s with op := 0x42, crcres := x.result s.crcres, rxbuf := storeBytes [d] s.rxbuf, rxlen := 1,
                     pstate := .idle, code := .timeOut, result := false, history := s.history ++ fs,
                     answers := ys }) ∧
        (x'.status = .ok → ∀ (y' : ComRun) (gs : List BusEvent) (c : Status), y'.fitsFrame s.cfg →
          s.answers = x.answers ++ y.frameAnswers s.cfg ++ x'.answers ++ y'.frameAnswers s.cfg ++ ys →
          gs = fs ++
            y'.frameEvents s.cfg s.cfg.framingFull (s.txbuf.toList.take 16 ++ (x'.result s.crcres).toList) →
          (y'.status s.cfg ≠ .ok → c = y'.status s.cfg) →
          (y'.status s.cfg = .ok → (¬ ∃ d', y'.data = [d'] ∧ d' &&& 0x0F = s.cfg.mfAck.setWidth 8) → c = .writeError) →
          (y'.status s.cfg = .ok → (∃ d', y'.data = [d'] ∧ d' &&& 0x0F = s.cfg.mfAck.setWidth 8) → c = .ok) →
          CompletesIn (.wrblk block) s gs.length
            { s with op := 0x42, crcres := x'.result s.crcres, rxbuf := storeBytes y'.data (storeBytes [d] s.rxbuf),
                     rxlen := y'.data.length, pstate := if c = .ok then s.pstate else .idle, code := c,
                     result := decide (c = .ok), history := s.history ++ gs, answers := ys })))

/-! CRC coprocessor. -/

/-- R233, CRC, with R230 and R231: CRCRES holds the low byte first, and is unchanged on TimeOut. -/
def Obligations.CrcReadsTheCoprocessor : Prop :=
  ∀ (n : Byte) (s : State),
    (∀ (x : CrcRun) (ys : List Byte) (es : List BusEvent), n.toNat ≤ 64 → s.ready → x.fits s.cfg →
      s.answers = x.answers ++ ys → es = x.events s.cfg (s.txbuf.toList.take n.toNat) →
      CompletesIn (.crc n) s es.length
        { s with op := 0x50, crcres := x.result s.crcres, code := x.status, result := decide (x.status = .ok),
                 history := s.history ++ es, answers := ys }) ∧
    (64 < n.toNat → s.busy = false → exec (.crc n) s = .next (raiseException .badOperand s))

/-! Buffers. -/

/-- R12, R111, R138, R160, R182: storing a list into a buffer puts element i into byte i, in order, and keeps every byte
at or beyond the list's length (93 U11), for each of the buffers; a receive of at most 64 bytes so writes RXBUF, puts the
length into RXLEN, and changes nothing else. The completion statements name what they receive through `storeBytes`. -/
def Obligations.ReceiveStoresInOrder : Prop :=
  (∀ (n : Nat) (xs : List Byte) (buf : Vector Byte n) (i : Nat) (h : i < n),
    (storeBytes xs buf)[i] = if hx : i < xs.length then xs[i] else buf[i]) ∧
  (∀ (xs : List Byte) (s : State) (b : Vector Byte 64),
    (∀ (i : Nat) (h : i < 64), b[i] = if hx : i < xs.length then xs[i] else s.rxbuf[i]) →
    receive xs s = { s with rxbuf := b, rxlen := xs.length })
end

