-- ==== Sys2Proof/Laws/State.lean ====
section
/-! SUPPORT. One lemma per field per update of State: what a named operation writes, and that it leaves every other field
as it was. No later proof unfolds a record update. -/

namespace Sys2Proof.Machine

/-! `raiseException`. -/

@[simp] theorem raiseException_op (c : Cause) (s : State) : (raiseException c s).op = s.op := by unfold raiseException; split <;> rfl
@[simp] theorem raiseException_argA (c : Cause) (s : State) : (raiseException c s).argA = s.argA := by unfold raiseException; split <;> rfl
@[simp] theorem raiseException_argB (c : Cause) (s : State) : (raiseException c s).argB = s.argB := by unfold raiseException; split <;> rfl
@[simp] theorem raiseException_argC (c : Cause) (s : State) : (raiseException c s).argC = s.argC := by unfold raiseException; split <;> rfl
@[simp] theorem raiseException_result (c : Cause) (s : State) : (raiseException c s).result = s.result := by unfold raiseException; split <;> rfl
@[simp] theorem raiseException_code (c : Cause) (s : State) : (raiseException c s).code = s.code := by unfold raiseException; split <;> rfl
@[simp] theorem raiseException_pstate (c : Cause) (s : State) : (raiseException c s).pstate = s.pstate := by unfold raiseException; split <;> rfl
@[simp] theorem raiseException_rxlen (c : Cause) (s : State) : (raiseException c s).rxlen = s.rxlen := by unfold raiseException; split <;> rfl
@[simp] theorem raiseException_exc (c : Cause) (s : State) :
    (raiseException c s).exc = if s.exc = none then some c else s.exc := by
  unfold raiseException; split <;> simp_all
@[simp] theorem raiseException_txbuf (c : Cause) (s : State) : (raiseException c s).txbuf = s.txbuf := by unfold raiseException; split <;> rfl
@[simp] theorem raiseException_rxbuf (c : Cause) (s : State) : (raiseException c s).rxbuf = s.rxbuf := by unfold raiseException; split <;> rfl
@[simp] theorem raiseException_uid (c : Cause) (s : State) : (raiseException c s).uid = s.uid := by unfold raiseException; split <;> rfl
@[simp] theorem raiseException_cmpuid (c : Cause) (s : State) : (raiseException c s).cmpuid = s.cmpuid := by unfold raiseException; split <;> rfl
@[simp] theorem raiseException_key (c : Cause) (s : State) : (raiseException c s).key = s.key := by unfold raiseException; split <;> rfl
@[simp] theorem raiseException_crcres (c : Cause) (s : State) : (raiseException c s).crcres = s.crcres := by unfold raiseException; split <;> rfl
@[simp] theorem raiseException_pos (c : Cause) (s : State) : (raiseException c s).pos = s.pos := by unfold raiseException; split <;> rfl
@[simp] theorem raiseException_rstN (c : Cause) (s : State) : (raiseException c s).rstN = s.rstN := by unfold raiseException; split <;> rfl
@[simp] theorem raiseException_history (c : Cause) (s : State) : (raiseException c s).history = s.history := by unfold raiseException; split <;> rfl
@[simp] theorem raiseException_cfg (c : Cause) (s : State) : (raiseException c s).cfg = s.cfg := by unfold raiseException; split <;> rfl
@[simp] theorem raiseException_schedule (c : Cause) (s : State) : (raiseException c s).schedule = s.schedule := by unfold raiseException; split <;> rfl
@[simp] theorem raiseException_answers (c : Cause) (s : State) : (raiseException c s).answers = s.answers := by unfold raiseException; split <;> rfl
@[simp] theorem raiseException_hostReads (c : Cause) (s : State) : (raiseException c s).hostReads = s.hostReads := by unfold raiseException; split <;> rfl
@[simp] theorem raiseException_epoch (c : Cause) (s : State) : (raiseException c s).epoch = s.epoch := by unfold raiseException; split <;> rfl

/-! `clearException`. -/

@[simp] theorem clearException_op (s : State) : (clearException s).op = s.op := rfl
@[simp] theorem clearException_argA (s : State) : (clearException s).argA = s.argA := rfl
@[simp] theorem clearException_argB (s : State) : (clearException s).argB = s.argB := rfl
@[simp] theorem clearException_argC (s : State) : (clearException s).argC = s.argC := rfl
@[simp] theorem clearException_result (s : State) : (clearException s).result = s.result := rfl
@[simp] theorem clearException_code (s : State) : (clearException s).code = s.code := rfl
@[simp] theorem clearException_pstate (s : State) : (clearException s).pstate = s.pstate := rfl
@[simp] theorem clearException_rxlen (s : State) : (clearException s).rxlen = s.rxlen := rfl
@[simp] theorem clearException_exc (s : State) : (clearException s).exc = none := rfl
@[simp] theorem clearException_txbuf (s : State) : (clearException s).txbuf = s.txbuf := rfl
@[simp] theorem clearException_rxbuf (s : State) : (clearException s).rxbuf = s.rxbuf := rfl
@[simp] theorem clearException_uid (s : State) : (clearException s).uid = s.uid := rfl
@[simp] theorem clearException_cmpuid (s : State) : (clearException s).cmpuid = s.cmpuid := rfl
@[simp] theorem clearException_key (s : State) : (clearException s).key = s.key := rfl
@[simp] theorem clearException_crcres (s : State) : (clearException s).crcres = s.crcres := rfl
@[simp] theorem clearException_pos (s : State) : (clearException s).pos = s.pos := rfl
@[simp] theorem clearException_rstN (s : State) : (clearException s).rstN = s.rstN := rfl
@[simp] theorem clearException_history (s : State) : (clearException s).history = s.history := rfl
@[simp] theorem clearException_cfg (s : State) : (clearException s).cfg = s.cfg := rfl
@[simp] theorem clearException_schedule (s : State) : (clearException s).schedule = s.schedule := rfl
@[simp] theorem clearException_answers (s : State) : (clearException s).answers = s.answers := rfl
@[simp] theorem clearException_hostReads (s : State) : (clearException s).hostReads = s.hostReads := rfl
@[simp] theorem clearException_epoch (s : State) : (clearException s).epoch = s.epoch := rfl

/-! `finish`. -/

@[simp] theorem finish_op (c : Status) (r : Bool) (s : State) : (finish c r s).op = s.op := rfl
@[simp] theorem finish_argA (c : Status) (r : Bool) (s : State) : (finish c r s).argA = s.argA := rfl
@[simp] theorem finish_argB (c : Status) (r : Bool) (s : State) : (finish c r s).argB = s.argB := rfl
@[simp] theorem finish_argC (c : Status) (r : Bool) (s : State) : (finish c r s).argC = s.argC := rfl
@[simp] theorem finish_result (c : Status) (r : Bool) (s : State) : (finish c r s).result = r := rfl
@[simp] theorem finish_code (c : Status) (r : Bool) (s : State) : (finish c r s).code = c := rfl
@[simp] theorem finish_pstate (c : Status) (r : Bool) (s : State) : (finish c r s).pstate = s.pstate := rfl
@[simp] theorem finish_rxlen (c : Status) (r : Bool) (s : State) : (finish c r s).rxlen = s.rxlen := rfl
@[simp] theorem finish_exc (c : Status) (r : Bool) (s : State) : (finish c r s).exc = s.exc := rfl
@[simp] theorem finish_txbuf (c : Status) (r : Bool) (s : State) : (finish c r s).txbuf = s.txbuf := rfl
@[simp] theorem finish_rxbuf (c : Status) (r : Bool) (s : State) : (finish c r s).rxbuf = s.rxbuf := rfl
@[simp] theorem finish_uid (c : Status) (r : Bool) (s : State) : (finish c r s).uid = s.uid := rfl
@[simp] theorem finish_cmpuid (c : Status) (r : Bool) (s : State) : (finish c r s).cmpuid = s.cmpuid := rfl
@[simp] theorem finish_key (c : Status) (r : Bool) (s : State) : (finish c r s).key = s.key := rfl
@[simp] theorem finish_crcres (c : Status) (r : Bool) (s : State) : (finish c r s).crcres = s.crcres := rfl
@[simp] theorem finish_pos (c : Status) (r : Bool) (s : State) : (finish c r s).pos = .idle := rfl
@[simp] theorem finish_rstN (c : Status) (r : Bool) (s : State) : (finish c r s).rstN = s.rstN := rfl
@[simp] theorem finish_history (c : Status) (r : Bool) (s : State) : (finish c r s).history = s.history := rfl
@[simp] theorem finish_cfg (c : Status) (r : Bool) (s : State) : (finish c r s).cfg = s.cfg := rfl
@[simp] theorem finish_schedule (c : Status) (r : Bool) (s : State) : (finish c r s).schedule = s.schedule := rfl
@[simp] theorem finish_answers (c : Status) (r : Bool) (s : State) : (finish c r s).answers = s.answers := rfl
@[simp] theorem finish_hostReads (c : Status) (r : Bool) (s : State) : (finish c r s).hostReads = s.hostReads := rfl
@[simp] theorem finish_epoch (c : Status) (r : Bool) (s : State) : (finish c r s).epoch = s.epoch := rfl

/-! `setPState`. -/

@[simp] theorem setPState_op (p : PState) (s : State) : (setPState p s).op = s.op := rfl
@[simp] theorem setPState_argA (p : PState) (s : State) : (setPState p s).argA = s.argA := rfl
@[simp] theorem setPState_argB (p : PState) (s : State) : (setPState p s).argB = s.argB := rfl
@[simp] theorem setPState_argC (p : PState) (s : State) : (setPState p s).argC = s.argC := rfl
@[simp] theorem setPState_result (p : PState) (s : State) : (setPState p s).result = s.result := rfl
@[simp] theorem setPState_code (p : PState) (s : State) : (setPState p s).code = s.code := rfl
@[simp] theorem setPState_pstate (p : PState) (s : State) : (setPState p s).pstate = p := rfl
@[simp] theorem setPState_rxlen (p : PState) (s : State) : (setPState p s).rxlen = s.rxlen := rfl
@[simp] theorem setPState_exc (p : PState) (s : State) : (setPState p s).exc = s.exc := rfl
@[simp] theorem setPState_txbuf (p : PState) (s : State) : (setPState p s).txbuf = s.txbuf := rfl
@[simp] theorem setPState_rxbuf (p : PState) (s : State) : (setPState p s).rxbuf = s.rxbuf := rfl
@[simp] theorem setPState_uid (p : PState) (s : State) : (setPState p s).uid = s.uid := rfl
@[simp] theorem setPState_cmpuid (p : PState) (s : State) : (setPState p s).cmpuid = s.cmpuid := rfl
@[simp] theorem setPState_key (p : PState) (s : State) : (setPState p s).key = s.key := rfl
@[simp] theorem setPState_crcres (p : PState) (s : State) : (setPState p s).crcres = s.crcres := rfl
@[simp] theorem setPState_pos (p : PState) (s : State) : (setPState p s).pos = s.pos := rfl
@[simp] theorem setPState_rstN (p : PState) (s : State) : (setPState p s).rstN = s.rstN := rfl
@[simp] theorem setPState_history (p : PState) (s : State) : (setPState p s).history = s.history := rfl
@[simp] theorem setPState_cfg (p : PState) (s : State) : (setPState p s).cfg = s.cfg := rfl
@[simp] theorem setPState_schedule (p : PState) (s : State) : (setPState p s).schedule = s.schedule := rfl
@[simp] theorem setPState_answers (p : PState) (s : State) : (setPState p s).answers = s.answers := rfl
@[simp] theorem setPState_hostReads (p : PState) (s : State) : (setPState p s).hostReads = s.hostReads := rfl
@[simp] theorem setPState_epoch (p : PState) (s : State) : (setPState p s).epoch = s.epoch := rfl

/-! `failCard`. -/

@[simp] theorem failCard_op (c : Status) (s : State) : (failCard c s).op = s.op := rfl
@[simp] theorem failCard_argA (c : Status) (s : State) : (failCard c s).argA = s.argA := rfl
@[simp] theorem failCard_argB (c : Status) (s : State) : (failCard c s).argB = s.argB := rfl
@[simp] theorem failCard_argC (c : Status) (s : State) : (failCard c s).argC = s.argC := rfl
@[simp] theorem failCard_result (c : Status) (s : State) : (failCard c s).result = false := rfl
@[simp] theorem failCard_code (c : Status) (s : State) : (failCard c s).code = c := rfl
@[simp] theorem failCard_pstate (c : Status) (s : State) : (failCard c s).pstate = .idle := rfl
@[simp] theorem failCard_rxlen (c : Status) (s : State) : (failCard c s).rxlen = s.rxlen := rfl
@[simp] theorem failCard_exc (c : Status) (s : State) : (failCard c s).exc = s.exc := rfl
@[simp] theorem failCard_txbuf (c : Status) (s : State) : (failCard c s).txbuf = s.txbuf := rfl
@[simp] theorem failCard_rxbuf (c : Status) (s : State) : (failCard c s).rxbuf = s.rxbuf := rfl
@[simp] theorem failCard_uid (c : Status) (s : State) : (failCard c s).uid = s.uid := rfl
@[simp] theorem failCard_cmpuid (c : Status) (s : State) : (failCard c s).cmpuid = s.cmpuid := rfl
@[simp] theorem failCard_key (c : Status) (s : State) : (failCard c s).key = s.key := rfl
@[simp] theorem failCard_crcres (c : Status) (s : State) : (failCard c s).crcres = s.crcres := rfl
@[simp] theorem failCard_pos (c : Status) (s : State) : (failCard c s).pos = .idle := rfl
@[simp] theorem failCard_rstN (c : Status) (s : State) : (failCard c s).rstN = s.rstN := rfl
@[simp] theorem failCard_history (c : Status) (s : State) : (failCard c s).history = s.history := rfl
@[simp] theorem failCard_cfg (c : Status) (s : State) : (failCard c s).cfg = s.cfg := rfl
@[simp] theorem failCard_schedule (c : Status) (s : State) : (failCard c s).schedule = s.schedule := rfl
@[simp] theorem failCard_answers (c : Status) (s : State) : (failCard c s).answers = s.answers := rfl
@[simp] theorem failCard_hostReads (c : Status) (s : State) : (failCard c s).hostReads = s.hostReads := rfl
@[simp] theorem failCard_epoch (c : Status) (s : State) : (failCard c s).epoch = s.epoch := rfl

/-! `toOutput`. -/

@[simp] theorem toOutput_op (o : Out) (rest : List Out) (next : After) (s : State) : (toOutput o rest next s).op = s.op := rfl
@[simp] theorem toOutput_argA (o : Out) (rest : List Out) (next : After) (s : State) : (toOutput o rest next s).argA = s.argA := rfl
@[simp] theorem toOutput_argB (o : Out) (rest : List Out) (next : After) (s : State) : (toOutput o rest next s).argB = s.argB := rfl
@[simp] theorem toOutput_argC (o : Out) (rest : List Out) (next : After) (s : State) : (toOutput o rest next s).argC = s.argC := rfl
@[simp] theorem toOutput_result (o : Out) (rest : List Out) (next : After) (s : State) : (toOutput o rest next s).result = s.result := rfl
@[simp] theorem toOutput_code (o : Out) (rest : List Out) (next : After) (s : State) : (toOutput o rest next s).code = s.code := rfl
@[simp] theorem toOutput_pstate (o : Out) (rest : List Out) (next : After) (s : State) : (toOutput o rest next s).pstate = s.pstate := rfl
@[simp] theorem toOutput_rxlen (o : Out) (rest : List Out) (next : After) (s : State) : (toOutput o rest next s).rxlen = s.rxlen := rfl
@[simp] theorem toOutput_exc (o : Out) (rest : List Out) (next : After) (s : State) : (toOutput o rest next s).exc = s.exc := rfl
@[simp] theorem toOutput_txbuf (o : Out) (rest : List Out) (next : After) (s : State) : (toOutput o rest next s).txbuf = s.txbuf := rfl
@[simp] theorem toOutput_rxbuf (o : Out) (rest : List Out) (next : After) (s : State) : (toOutput o rest next s).rxbuf = s.rxbuf := rfl
@[simp] theorem toOutput_uid (o : Out) (rest : List Out) (next : After) (s : State) : (toOutput o rest next s).uid = s.uid := rfl
@[simp] theorem toOutput_cmpuid (o : Out) (rest : List Out) (next : After) (s : State) : (toOutput o rest next s).cmpuid = s.cmpuid := rfl
@[simp] theorem toOutput_key (o : Out) (rest : List Out) (next : After) (s : State) : (toOutput o rest next s).key = s.key := rfl
@[simp] theorem toOutput_crcres (o : Out) (rest : List Out) (next : After) (s : State) : (toOutput o rest next s).crcres = s.crcres := rfl
@[simp] theorem toOutput_pos (o : Out) (rest : List Out) (next : After) (s : State) : (toOutput o rest next s).pos = .output o rest next := rfl
@[simp] theorem toOutput_rstN (o : Out) (rest : List Out) (next : After) (s : State) : (toOutput o rest next s).rstN = s.rstN := rfl
@[simp] theorem toOutput_history (o : Out) (rest : List Out) (next : After) (s : State) : (toOutput o rest next s).history = s.history := rfl
@[simp] theorem toOutput_cfg (o : Out) (rest : List Out) (next : After) (s : State) : (toOutput o rest next s).cfg = s.cfg := rfl
@[simp] theorem toOutput_schedule (o : Out) (rest : List Out) (next : After) (s : State) : (toOutput o rest next s).schedule = s.schedule := rfl
@[simp] theorem toOutput_answers (o : Out) (rest : List Out) (next : After) (s : State) : (toOutput o rest next s).answers = s.answers := rfl
@[simp] theorem toOutput_hostReads (o : Out) (rest : List Out) (next : After) (s : State) : (toOutput o rest next s).hostReads = s.hostReads := rfl
@[simp] theorem toOutput_epoch (o : Out) (rest : List Out) (next : After) (s : State) : (toOutput o rest next s).epoch = s.epoch := rfl

/-! `toInput`. -/

@[simp] theorem toInput_op (a : Byte) (k : Await) (s : State) : (toInput a k s).op = s.op := rfl
@[simp] theorem toInput_argA (a : Byte) (k : Await) (s : State) : (toInput a k s).argA = s.argA := rfl
@[simp] theorem toInput_argB (a : Byte) (k : Await) (s : State) : (toInput a k s).argB = s.argB := rfl
@[simp] theorem toInput_argC (a : Byte) (k : Await) (s : State) : (toInput a k s).argC = s.argC := rfl
@[simp] theorem toInput_result (a : Byte) (k : Await) (s : State) : (toInput a k s).result = s.result := rfl
@[simp] theorem toInput_code (a : Byte) (k : Await) (s : State) : (toInput a k s).code = s.code := rfl
@[simp] theorem toInput_pstate (a : Byte) (k : Await) (s : State) : (toInput a k s).pstate = s.pstate := rfl
@[simp] theorem toInput_rxlen (a : Byte) (k : Await) (s : State) : (toInput a k s).rxlen = s.rxlen := rfl
@[simp] theorem toInput_exc (a : Byte) (k : Await) (s : State) : (toInput a k s).exc = s.exc := rfl
@[simp] theorem toInput_txbuf (a : Byte) (k : Await) (s : State) : (toInput a k s).txbuf = s.txbuf := rfl
@[simp] theorem toInput_rxbuf (a : Byte) (k : Await) (s : State) : (toInput a k s).rxbuf = s.rxbuf := rfl
@[simp] theorem toInput_uid (a : Byte) (k : Await) (s : State) : (toInput a k s).uid = s.uid := rfl
@[simp] theorem toInput_cmpuid (a : Byte) (k : Await) (s : State) : (toInput a k s).cmpuid = s.cmpuid := rfl
@[simp] theorem toInput_key (a : Byte) (k : Await) (s : State) : (toInput a k s).key = s.key := rfl
@[simp] theorem toInput_crcres (a : Byte) (k : Await) (s : State) : (toInput a k s).crcres = s.crcres := rfl
@[simp] theorem toInput_pos (a : Byte) (k : Await) (s : State) : (toInput a k s).pos = .input a k := rfl
@[simp] theorem toInput_rstN (a : Byte) (k : Await) (s : State) : (toInput a k s).rstN = s.rstN := rfl
@[simp] theorem toInput_history (a : Byte) (k : Await) (s : State) : (toInput a k s).history = s.history := rfl
@[simp] theorem toInput_cfg (a : Byte) (k : Await) (s : State) : (toInput a k s).cfg = s.cfg := rfl
@[simp] theorem toInput_schedule (a : Byte) (k : Await) (s : State) : (toInput a k s).schedule = s.schedule := rfl
@[simp] theorem toInput_answers (a : Byte) (k : Await) (s : State) : (toInput a k s).answers = s.answers := rfl
@[simp] theorem toInput_hostReads (a : Byte) (k : Await) (s : State) : (toInput a k s).hostReads = s.hostReads := rfl
@[simp] theorem toInput_epoch (a : Byte) (k : Await) (s : State) : (toInput a k s).epoch = s.epoch := rfl

/-! `afterRead`. -/

@[simp] theorem afterRead_op (a : Byte) (s : State) : (afterRead a s).op = s.op := rfl
@[simp] theorem afterRead_argA (a : Byte) (s : State) : (afterRead a s).argA = s.argA := rfl
@[simp] theorem afterRead_argB (a : Byte) (s : State) : (afterRead a s).argB = s.argB := rfl
@[simp] theorem afterRead_argC (a : Byte) (s : State) : (afterRead a s).argC = s.argC := rfl
@[simp] theorem afterRead_result (a : Byte) (s : State) : (afterRead a s).result = s.result := rfl
@[simp] theorem afterRead_code (a : Byte) (s : State) : (afterRead a s).code = s.code := rfl
@[simp] theorem afterRead_pstate (a : Byte) (s : State) : (afterRead a s).pstate = s.pstate := rfl
@[simp] theorem afterRead_rxlen (a : Byte) (s : State) : (afterRead a s).rxlen = s.rxlen := rfl
@[simp] theorem afterRead_exc (a : Byte) (s : State) : (afterRead a s).exc = s.exc := rfl
@[simp] theorem afterRead_txbuf (a : Byte) (s : State) : (afterRead a s).txbuf = s.txbuf := rfl
@[simp] theorem afterRead_rxbuf (a : Byte) (s : State) : (afterRead a s).rxbuf = s.rxbuf := rfl
@[simp] theorem afterRead_uid (a : Byte) (s : State) : (afterRead a s).uid = s.uid := rfl
@[simp] theorem afterRead_cmpuid (a : Byte) (s : State) : (afterRead a s).cmpuid = s.cmpuid := rfl
@[simp] theorem afterRead_key (a : Byte) (s : State) : (afterRead a s).key = s.key := rfl
@[simp] theorem afterRead_crcres (a : Byte) (s : State) : (afterRead a s).crcres = s.crcres := rfl
@[simp] theorem afterRead_pos (a : Byte) (s : State) : (afterRead a s).pos = s.pos := rfl
@[simp] theorem afterRead_rstN (a : Byte) (s : State) : (afterRead a s).rstN = s.rstN := rfl
@[simp] theorem afterRead_history (a : Byte) (s : State) : (afterRead a s).history = s.history ++ [.r a (answerTo a s)] := rfl
@[simp] theorem afterRead_cfg (a : Byte) (s : State) : (afterRead a s).cfg = s.cfg := rfl
@[simp] theorem afterRead_schedule (a : Byte) (s : State) : (afterRead a s).schedule = s.schedule := rfl
@[simp] theorem afterRead_answers (a : Byte) (s : State) : (afterRead a s).answers = s.answers.tail := rfl
@[simp] theorem afterRead_hostReads (a : Byte) (s : State) : (afterRead a s).hostReads = s.hostReads := rfl
@[simp] theorem afterRead_epoch (a : Byte) (s : State) : (afterRead a s).epoch = s.epoch := rfl

/-! `receive`. -/

@[simp] theorem receive_op (xs : List Byte) (s : State) : (receive xs s).op = s.op := rfl
@[simp] theorem receive_argA (xs : List Byte) (s : State) : (receive xs s).argA = s.argA := rfl
@[simp] theorem receive_argB (xs : List Byte) (s : State) : (receive xs s).argB = s.argB := rfl
@[simp] theorem receive_argC (xs : List Byte) (s : State) : (receive xs s).argC = s.argC := rfl
@[simp] theorem receive_result (xs : List Byte) (s : State) : (receive xs s).result = s.result := rfl
@[simp] theorem receive_code (xs : List Byte) (s : State) : (receive xs s).code = s.code := rfl
@[simp] theorem receive_pstate (xs : List Byte) (s : State) : (receive xs s).pstate = s.pstate := rfl
@[simp] theorem receive_rxlen (xs : List Byte) (s : State) : (receive xs s).rxlen = xs.length := rfl
@[simp] theorem receive_exc (xs : List Byte) (s : State) : (receive xs s).exc = s.exc := rfl
@[simp] theorem receive_txbuf (xs : List Byte) (s : State) : (receive xs s).txbuf = s.txbuf := rfl
@[simp] theorem receive_rxbuf (xs : List Byte) (s : State) : (receive xs s).rxbuf = storeBytes xs s.rxbuf := rfl
@[simp] theorem receive_uid (xs : List Byte) (s : State) : (receive xs s).uid = s.uid := rfl
@[simp] theorem receive_cmpuid (xs : List Byte) (s : State) : (receive xs s).cmpuid = s.cmpuid := rfl
@[simp] theorem receive_key (xs : List Byte) (s : State) : (receive xs s).key = s.key := rfl
@[simp] theorem receive_crcres (xs : List Byte) (s : State) : (receive xs s).crcres = s.crcres := rfl
@[simp] theorem receive_pos (xs : List Byte) (s : State) : (receive xs s).pos = s.pos := rfl
@[simp] theorem receive_rstN (xs : List Byte) (s : State) : (receive xs s).rstN = s.rstN := rfl
@[simp] theorem receive_history (xs : List Byte) (s : State) : (receive xs s).history = s.history := rfl
@[simp] theorem receive_cfg (xs : List Byte) (s : State) : (receive xs s).cfg = s.cfg := rfl
@[simp] theorem receive_schedule (xs : List Byte) (s : State) : (receive xs s).schedule = s.schedule := rfl
@[simp] theorem receive_answers (xs : List Byte) (s : State) : (receive xs s).answers = s.answers := rfl
@[simp] theorem receive_hostReads (xs : List Byte) (s : State) : (receive xs s).hostReads = s.hostReads := rfl
@[simp] theorem receive_epoch (xs : List Byte) (s : State) : (receive xs s).epoch = s.epoch := rfl

/-! `storeCrc`. -/

@[simp] theorem storeCrc_op (hi lo : Byte) (s : State) : (storeCrc hi lo s).op = s.op := rfl
@[simp] theorem storeCrc_argA (hi lo : Byte) (s : State) : (storeCrc hi lo s).argA = s.argA := rfl
@[simp] theorem storeCrc_argB (hi lo : Byte) (s : State) : (storeCrc hi lo s).argB = s.argB := rfl
@[simp] theorem storeCrc_argC (hi lo : Byte) (s : State) : (storeCrc hi lo s).argC = s.argC := rfl
@[simp] theorem storeCrc_result (hi lo : Byte) (s : State) : (storeCrc hi lo s).result = s.result := rfl
@[simp] theorem storeCrc_code (hi lo : Byte) (s : State) : (storeCrc hi lo s).code = s.code := rfl
@[simp] theorem storeCrc_pstate (hi lo : Byte) (s : State) : (storeCrc hi lo s).pstate = s.pstate := rfl
@[simp] theorem storeCrc_rxlen (hi lo : Byte) (s : State) : (storeCrc hi lo s).rxlen = s.rxlen := rfl
@[simp] theorem storeCrc_exc (hi lo : Byte) (s : State) : (storeCrc hi lo s).exc = s.exc := rfl
@[simp] theorem storeCrc_txbuf (hi lo : Byte) (s : State) : (storeCrc hi lo s).txbuf = s.txbuf := rfl
@[simp] theorem storeCrc_rxbuf (hi lo : Byte) (s : State) : (storeCrc hi lo s).rxbuf = s.rxbuf := rfl
@[simp] theorem storeCrc_uid (hi lo : Byte) (s : State) : (storeCrc hi lo s).uid = s.uid := rfl
@[simp] theorem storeCrc_cmpuid (hi lo : Byte) (s : State) : (storeCrc hi lo s).cmpuid = s.cmpuid := rfl
@[simp] theorem storeCrc_key (hi lo : Byte) (s : State) : (storeCrc hi lo s).key = s.key := rfl
@[simp] theorem storeCrc_crcres (hi lo : Byte) (s : State) : (storeCrc hi lo s).crcres = #v[lo, hi] := rfl
@[simp] theorem storeCrc_pos (hi lo : Byte) (s : State) : (storeCrc hi lo s).pos = s.pos := rfl
@[simp] theorem storeCrc_rstN (hi lo : Byte) (s : State) : (storeCrc hi lo s).rstN = s.rstN := rfl
@[simp] theorem storeCrc_history (hi lo : Byte) (s : State) : (storeCrc hi lo s).history = s.history := rfl
@[simp] theorem storeCrc_cfg (hi lo : Byte) (s : State) : (storeCrc hi lo s).cfg = s.cfg := rfl
@[simp] theorem storeCrc_schedule (hi lo : Byte) (s : State) : (storeCrc hi lo s).schedule = s.schedule := rfl
@[simp] theorem storeCrc_answers (hi lo : Byte) (s : State) : (storeCrc hi lo s).answers = s.answers := rfl
@[simp] theorem storeCrc_hostReads (hi lo : Byte) (s : State) : (storeCrc hi lo s).hostReads = s.hostReads := rfl
@[simp] theorem storeCrc_epoch (hi lo : Byte) (s : State) : (storeCrc hi lo s).epoch = s.epoch := rfl

/-! `copyUid`. -/

@[simp] theorem copyUid_op (s : State) : (copyUid s).op = s.op := rfl
@[simp] theorem copyUid_argA (s : State) : (copyUid s).argA = s.argA := rfl
@[simp] theorem copyUid_argB (s : State) : (copyUid s).argB = s.argB := rfl
@[simp] theorem copyUid_argC (s : State) : (copyUid s).argC = s.argC := rfl
@[simp] theorem copyUid_result (s : State) : (copyUid s).result = s.result := rfl
@[simp] theorem copyUid_code (s : State) : (copyUid s).code = s.code := rfl
@[simp] theorem copyUid_pstate (s : State) : (copyUid s).pstate = s.pstate := rfl
@[simp] theorem copyUid_rxlen (s : State) : (copyUid s).rxlen = s.rxlen := rfl
@[simp] theorem copyUid_exc (s : State) : (copyUid s).exc = s.exc := rfl
@[simp] theorem copyUid_txbuf (s : State) : (copyUid s).txbuf = s.txbuf := rfl
@[simp] theorem copyUid_rxbuf (s : State) : (copyUid s).rxbuf = s.rxbuf := rfl
@[simp] theorem copyUid_uid (s : State) : (copyUid s).uid = storeBytes (firstBytes (min s.rxlen 5) s.rxbuf) s.uid := rfl
@[simp] theorem copyUid_cmpuid (s : State) : (copyUid s).cmpuid = s.cmpuid := rfl
@[simp] theorem copyUid_key (s : State) : (copyUid s).key = s.key := rfl
@[simp] theorem copyUid_crcres (s : State) : (copyUid s).crcres = s.crcres := rfl
@[simp] theorem copyUid_pos (s : State) : (copyUid s).pos = s.pos := rfl
@[simp] theorem copyUid_rstN (s : State) : (copyUid s).rstN = s.rstN := rfl
@[simp] theorem copyUid_history (s : State) : (copyUid s).history = s.history := rfl
@[simp] theorem copyUid_cfg (s : State) : (copyUid s).cfg = s.cfg := rfl
@[simp] theorem copyUid_schedule (s : State) : (copyUid s).schedule = s.schedule := rfl
@[simp] theorem copyUid_answers (s : State) : (copyUid s).answers = s.answers := rfl
@[simp] theorem copyUid_hostReads (s : State) : (copyUid s).hostReads = s.hostReads := rfl
@[simp] theorem copyUid_epoch (s : State) : (copyUid s).epoch = s.epoch := rfl

/-! `leavePosition`. -/

@[simp] theorem leavePosition_op (s : State) : (leavePosition s).op = s.op := rfl
@[simp] theorem leavePosition_argA (s : State) : (leavePosition s).argA = s.argA := rfl
@[simp] theorem leavePosition_argB (s : State) : (leavePosition s).argB = s.argB := rfl
@[simp] theorem leavePosition_argC (s : State) : (leavePosition s).argC = s.argC := rfl
@[simp] theorem leavePosition_result (s : State) : (leavePosition s).result = s.result := rfl
@[simp] theorem leavePosition_code (s : State) : (leavePosition s).code = s.code := rfl
@[simp] theorem leavePosition_pstate (s : State) : (leavePosition s).pstate = s.pstate := rfl
@[simp] theorem leavePosition_rxlen (s : State) : (leavePosition s).rxlen = s.rxlen := rfl
@[simp] theorem leavePosition_exc (s : State) : (leavePosition s).exc = s.exc := rfl
@[simp] theorem leavePosition_txbuf (s : State) : (leavePosition s).txbuf = s.txbuf := rfl
@[simp] theorem leavePosition_rxbuf (s : State) : (leavePosition s).rxbuf = s.rxbuf := rfl
@[simp] theorem leavePosition_uid (s : State) : (leavePosition s).uid = s.uid := rfl
@[simp] theorem leavePosition_cmpuid (s : State) : (leavePosition s).cmpuid = s.cmpuid := rfl
@[simp] theorem leavePosition_key (s : State) : (leavePosition s).key = s.key := rfl
@[simp] theorem leavePosition_crcres (s : State) : (leavePosition s).crcres = s.crcres := rfl
@[simp] theorem leavePosition_pos (s : State) : (leavePosition s).pos = .idle := rfl
@[simp] theorem leavePosition_rstN (s : State) : (leavePosition s).rstN = s.rstN := rfl
@[simp] theorem leavePosition_history (s : State) : (leavePosition s).history = s.history := rfl
@[simp] theorem leavePosition_cfg (s : State) : (leavePosition s).cfg = s.cfg := rfl
@[simp] theorem leavePosition_schedule (s : State) : (leavePosition s).schedule = s.schedule := rfl
@[simp] theorem leavePosition_answers (s : State) : (leavePosition s).answers = s.answers := rfl
@[simp] theorem leavePosition_hostReads (s : State) : (leavePosition s).hostReads = s.hostReads := rfl
@[simp] theorem leavePosition_epoch (s : State) : (leavePosition s).epoch = s.epoch := rfl

/-! `drive`. -/

@[simp] theorem drive_op (o : Out) (s : State) : (drive o s).op = s.op := by cases o <;> rfl
@[simp] theorem drive_argA (o : Out) (s : State) : (drive o s).argA = s.argA := by cases o <;> rfl
@[simp] theorem drive_argB (o : Out) (s : State) : (drive o s).argB = s.argB := by cases o <;> rfl
@[simp] theorem drive_argC (o : Out) (s : State) : (drive o s).argC = s.argC := by cases o <;> rfl
@[simp] theorem drive_result (o : Out) (s : State) : (drive o s).result = s.result := by cases o <;> rfl
@[simp] theorem drive_code (o : Out) (s : State) : (drive o s).code = s.code := by cases o <;> rfl
@[simp] theorem drive_pstate (o : Out) (s : State) : (drive o s).pstate = s.pstate := by cases o <;> rfl
@[simp] theorem drive_rxlen (o : Out) (s : State) : (drive o s).rxlen = s.rxlen := by cases o <;> rfl
@[simp] theorem drive_exc (o : Out) (s : State) : (drive o s).exc = s.exc := by cases o <;> rfl
@[simp] theorem drive_txbuf (o : Out) (s : State) : (drive o s).txbuf = s.txbuf := by cases o <;> rfl
@[simp] theorem drive_rxbuf (o : Out) (s : State) : (drive o s).rxbuf = s.rxbuf := by cases o <;> rfl
@[simp] theorem drive_uid (o : Out) (s : State) : (drive o s).uid = s.uid := by cases o <;> rfl
@[simp] theorem drive_cmpuid (o : Out) (s : State) : (drive o s).cmpuid = s.cmpuid := by cases o <;> rfl
@[simp] theorem drive_key (o : Out) (s : State) : (drive o s).key = s.key := by cases o <;> rfl
@[simp] theorem drive_crcres (o : Out) (s : State) : (drive o s).crcres = s.crcres := by cases o <;> rfl
@[simp] theorem drive_pos (o : Out) (s : State) : (drive o s).pos = s.pos := by cases o <;> rfl
@[simp] theorem drive_cfg (o : Out) (s : State) : (drive o s).cfg = s.cfg := by cases o <;> rfl
@[simp] theorem drive_schedule (o : Out) (s : State) : (drive o s).schedule = s.schedule := by cases o <;> rfl
@[simp] theorem drive_answers (o : Out) (s : State) : (drive o s).answers = s.answers := by cases o <;> rfl
@[simp] theorem drive_hostReads (o : Out) (s : State) : (drive o s).hostReads = s.hostReads := by cases o <;> rfl
@[simp] theorem drive_epoch (o : Out) (s : State) : (drive o s).epoch = s.epoch := by cases o <;> rfl

@[simp] theorem drive_write_history (a v : Byte) (s : State) :
    (drive (.write a v) s).history = s.history ++ [.w a v] := rfl
@[simp] theorem drive_pin_history (l : Bool) (s : State) : (drive (.pin l) s).history = s.history ++ [.p l] := rfl
@[simp] theorem drive_write_rstN (a v : Byte) (s : State) : (drive (.write a v) s).rstN = s.rstN := rfl
@[simp] theorem drive_pin_rstN (l : Bool) (s : State) : (drive (.pin l) s).rstN = l := rfl

end Sys2Proof.Machine
end

