-- ==== Sys2Proof/Laws/Ops.lean ====
section
/-! SUPPORT. One lemma per shared operation: what busy means, what issuing a command can do, what exception entry leaves,
and the buffers' bulk store. -/

namespace Sys2Proof.Machine

theorem busy_eq_false_iff (s : State) : s.busy = false ↔ s.pos = .idle := by simp [State.busy]

theorem busy_eq_true_iff (s : State) : s.busy = true ↔ s.pos ≠ .idle := by simp [State.busy]

@[simp] theorem busy_of_pos (s : State) (h : s.pos = .idle) : s.busy = false := (busy_eq_false_iff s).2 h

/-- Everything `issue` can do (R30, R255). -/
theorem issue_cases (opcode : Byte) (ok : Bool) (start : State → State) (s : State) :
    (s.busy = true ∧ issue opcode ok start s = .next (raiseException .cmdWhileBusy s)) ∨
    (s.busy = false ∧ ok = true ∧ issue opcode ok start s = .next (start { s with op := opcode })) ∨
    (s.busy = false ∧ ok = false ∧ issue opcode ok start s = .next (raiseException .badOperand s)) := by
  unfold issue
  cases s.busy <;> cases ok <;> simp

theorem issue_accepts {opcode : Byte} {ok : Bool} (start : State → State) {s : State} (hb : s.busy = false)
    (hok : ok = true) : issue opcode ok start s = .next (start { s with op := opcode }) := by simp [issue, hb, hok]

theorem issue_refuses {opcode : Byte} {ok : Bool} (start : State → State) {s : State} (hb : s.busy = false)
    (hok : ok = false) : issue opcode ok start s = .next (raiseException .badOperand s) := by simp [issue, hb, hok]

theorem issue_busy (opcode : Byte) (ok : Bool) (start : State → State) {s : State} (hb : s.busy = true) :
    issue opcode ok start s = .next (raiseException .cmdWhileBusy s) := by simp [issue, hb]

/-- Exception entry (R253) as one update of EXC. -/
theorem raiseException_eq (c : Cause) (s : State) :
    raiseException c s = { s with exc := if s.exc = none then some c else s.exc } := by
  cases s with
  | mk => rename_i exc _ _ _ _ _ _ _ _ _ _ _ _ _ _; cases exc <;> rfl

@[simp] theorem raiseException_busy (c : Cause) (s : State) : (raiseException c s).busy = s.busy := by
  simp [State.busy]

@[simp] theorem storeBytes_getElem {n : Nat} (xs : List Byte) (buf : Vector Byte n) (i : Nat) (h : i < n) :
    (storeBytes xs buf)[i] = (xs[i]?).getD buf[i] := by simp [storeBytes]

/-- Storing nothing changes nothing. -/
@[simp] theorem storeBytes_nil {n : Nat} (buf : Vector Byte n) : storeBytes [] buf = buf := by
  ext i h; simp

/-- Storing one byte is a write of byte 0. -/
theorem storeBytes_singleton {n : Nat} (v : Byte) (buf : Vector Byte (n + 1)) :
    storeBytes [v] buf = buf.set 0 v := by
  ext i h
  cases i <;> simp

/-- A list as long as the buffer replaces it. -/
theorem storeBytes_full {n : Nat} (xs : List Byte) (buf : Vector Byte n) (h : xs.length = n) :
    (storeBytes xs buf).toList = xs := by
  apply List.ext_getElem
  · simp [h]
  · intro i h1 h2
    simp [List.getElem?_eq_getElem h2]

@[simp] theorem firstBytes_length {n : Nat} (k : Nat) (buf : Vector Byte n) :
    (firstBytes k buf).length = min k n := by simp [firstBytes]

/-- The first `k` bytes after a store of at least `k` bytes are the first `k` stored. -/
theorem firstBytes_storeBytes {n : Nat} (k : Nat) (xs : List Byte) (buf : Vector Byte n) (hk : k ≤ xs.length)
    (hn : k ≤ n) : firstBytes k (storeBytes xs buf) = xs.take k := by
  apply List.ext_getElem
  · simp [hk, hn]
  · intro i h1 h2
    have hi : i < xs.length := by simp at h2; omega
    simp [firstBytes, List.getElem?_eq_getElem hi]

/-- Storing the first `k` bytes only is storing all of a shorter list, where the buffer is no longer than `k`. -/
theorem storeBytes_take {n : Nat} (k : Nat) (xs : List Byte) (buf : Vector Byte n) (hn : n ≤ k) :
    storeBytes (xs.take k) buf = storeBytes xs buf := by
  ext i h
  have : i < k := by omega
  simp [this]

@[simp] theorem writesOf_nil (a : Byte) : writesOf a [] = [] := rfl

@[simp] theorem writesOf_cons (a x : Byte) (xs : List Byte) : writesOf a (x :: xs) = .write a x :: writesOf a xs := rfl

@[simp] theorem writesOf_length (a : Byte) (xs : List Byte) : (writesOf a xs).length = xs.length := by simp [writesOf]

@[simp] theorem writeEvents_length (a : Byte) (xs : List Byte) : (writeEvents a xs).length = xs.length := by
  simp [writeEvents]

@[simp] theorem readEvents_length (a : Byte) (xs : List Byte) : (readEvents a xs).length = xs.length := by
  simp [readEvents]

end Sys2Proof.Machine
end

