-- ==== Sys2Proof/Laws/Exec.lean ====
section
/-! SUPPORT. All 25 meanings through one equation: each issues its command (R30) with the checks of R251 and then what
its pseudocode does before its first primitive; so everything a host write that issues a command can do is said once. -/

namespace Sys2Proof.Machine

/-- What a command does from its acceptance to its first primitive or its `finish`. -/
def startOf (i : Instr) (s : State) : State :=
  match i with
  | .rreg addr => toInput addr .rreg s
  | .rregn addr n =>
    match n.toNat with
    | 0 => finish .ok true (receive [] s)
    | left + 1 => startBulkRead addr left .rregn s
  | .wreg addr v => toOutput (.write addr v) [] .done s
  | .wregn addr n =>
    match writesOf addr (firstBytes n.toNat s.txbuf) with
    | [] => finish .ok true s
    | o :: rest => toOutput o rest .done s
  | .setbm addr mask => startSetBits addr mask [] .done s
  | .clrbm addr mask => startClearBits addr mask .done s
  | .hrst => toOutput (.pin false) [.pin true] (.pollBoot .plain) (setPState .idle s)
  | .srst =>
    toOutput (.write s.cfg.regCommand (commandByte s.cfg.cmdSoftReset)) [] (.pollBoot .plain) (setPState .idle s)
  | .waitboot => startWaitForBootUp .plain s
  | .ant on =>
    if on = 1 then startSetBits s.cfg.regTxControl s.cfg.mAntenna [] .done s
    else startClearBits s.cfg.regTxControl s.cfg.mAntenna .antennaOff s
  | .chkerr => startCheckError .chkerr s
  | .init => toOutput (.pin false) [.pin true] (.pollBoot .init) (setPState .idle s)
  | .selftest =>
    toOutput (.write s.cfg.regCommand (commandByte s.cfg.cmdSoftReset)) [] (.pollBoot .selftest) (setPState .idle s)
  | .flush => toOutput (.write s.cfg.regFifoLevel s.cfg.mFlush) [] .done s
  | .comm cmd len cap =>
    startCommunicate (chipCommand cmd) (firstBytes len.toNat s.txbuf) cap.toNat .comm s
  | .ispres => startIspres .ispres s
  | .getuid => startGetuid .getuid s
  | .waituid => startIspres .waitPresent s
  | .select => startSendWithCRC (selectFrame s.cfg s.uid) .select s
  | .chkbcc => finish (if uidValid s.uid then .ok else .bccError) (uidValid s.uid) s
  | .uideq => finish .ok (uidMatches s) s
  | .auth variant block => startCommunicate s.cfg.cmdMfAuthent (authFrame variant block s) 64 .auth s
  | .rdblk block => startSendWithCRC [s.cfg.mfRead, block] .rdblk s
  | .wrblk block => startSendWithCRC [s.cfg.mfWrite, block] .wrblkCommand s
  | .crc n => startCalculateCRC (firstBytes n.toNat s.txbuf) .crc s

theorem startOf_rregn_zero {a n : Byte} {s : State} (h : n.toNat = 0) :
    startOf (.rregn a n) s = finish .ok true (receive [] s) := by
  simp only [startOf]; split
  · rfl
  · omega

theorem startOf_rregn_succ {a n : Byte} {s : State} {left : Nat} (h : n.toNat = left + 1) :
    startOf (.rregn a n) s = startBulkRead a left .rregn s := by
  simp only [startOf]; split
  · omega
  · rename_i m hm; rw [show m = left by omega]

theorem startOf_wregn_nil {a n : Byte} {s : State} (h : firstBytes n.toNat s.txbuf = []) :
    startOf (.wregn a n) s = finish .ok true s := by simp [startOf, h]

theorem startOf_wregn_cons {a n x : Byte} {xs : List Byte} {s : State} (h : firstBytes n.toNat s.txbuf = x :: xs) :
    startOf (.wregn a n) s = toOutput (.write a x) (writesOf a xs) .done s := by simp [startOf, h]

/-- Every meaning is an issue of its command. -/
theorem exec_eq (i : Instr) (s : State) : exec i s = issue i.opcode (i.wellFormed s.cfg) (startOf i) s := by
  cases i <;> rfl

/-- Issued while a command runs (R252). -/
theorem exec_busy (i : Instr) {s : State} (h : s.busy = true) :
    exec i s = .next (raiseException .cmdWhileBusy s) := by rw [exec_eq, issue_busy _ _ _ h]

/-- Issued with an operand outside its limits (R251). -/
theorem exec_refuses {i : Instr} {s : State} (h : s.busy = false) (hw : i.wellFormed s.cfg = false) :
    exec i s = .next (raiseException .badOperand s) := by rw [exec_eq, issue_refuses _ h hw]

/-- Accepted (R30). -/
theorem exec_accepts {i : Instr} {s : State} (h : s.busy = false) (hw : i.wellFormed s.cfg = true) :
    exec i s = .next (startOf i { s with op := i.opcode }) := by rw [exec_eq, issue_accepts _ h hw]

/-- A meaning always answers a next state. -/
theorem exec_next (i : Instr) (s : State) : ∃ t, exec i s = .next t := by
  rw [exec_eq]
  rcases issue_cases i.opcode (i.wellFormed s.cfg) (startOf i) s with ⟨_, h⟩ | ⟨_, _, h⟩ | ⟨_, _, h⟩ <;> exact ⟨_, h⟩

end Sys2Proof.Machine
end

