-- ==== Sys2Proof/Laws/Frame.lean ====
section
/-! SUPPORT. What no sequencer step touches of the model's own inputs: the configuration and the schedule, one lemma per
function between the step and the shared operations. -/

namespace Sys2Proof.Machine

@[simp] theorem startCommunicate_inputs (cmd : BitVec 4) (tx : List Byte) (cap : Nat) (caller : CommCaller) (s : State) :
    (startCommunicate cmd tx cap caller s).cfg = s.cfg ∧ (startCommunicate cmd tx cap caller s).schedule = s.schedule := by
  unfold startCommunicate; repeat' split
  all_goals simp

@[simp] theorem startFrame_inputs (framing : Byte) (tx : List Byte) (caller : CommCaller) (s : State) :
    (startFrame framing tx caller s).cfg = s.cfg ∧ (startFrame framing tx caller s).schedule = s.schedule := by
  unfold startFrame
  simp

@[simp] theorem startCalculateCRC_inputs (data : List Byte) (caller : CrcCaller) (s : State) :
    (startCalculateCRC data caller s).cfg = s.cfg ∧ (startCalculateCRC data caller s).schedule = s.schedule := by
  unfold startCalculateCRC
  simp

@[simp] theorem startSendWithCRC_inputs (body : List Byte) (caller : CommCaller) (s : State) :
    (startSendWithCRC body caller s).cfg = s.cfg ∧ (startSendWithCRC body caller s).schedule = s.schedule := by
  unfold startSendWithCRC
  simp

@[simp] theorem startVerifyCRC_inputs (k : Nat) (caller : VerifyCaller) (s : State) :
    (startVerifyCRC k caller s).cfg = s.cfg ∧ (startVerifyCRC k caller s).schedule = s.schedule := by
  unfold startVerifyCRC
  simp

@[simp] theorem startWaitForBootUp_inputs (caller : BootCaller) (s : State) :
    (startWaitForBootUp caller s).cfg = s.cfg ∧ (startWaitForBootUp caller s).schedule = s.schedule := by
  unfold startWaitForBootUp
  simp

@[simp] theorem startCheckError_inputs (caller : ErrorCaller) (s : State) :
    (startCheckError caller s).cfg = s.cfg ∧ (startCheckError caller s).schedule = s.schedule := by
  unfold startCheckError
  simp

@[simp] theorem startBulkRead_inputs (a : Byte) (left : Nat) (caller : BulkCaller) (s : State) :
    (startBulkRead a left caller s).cfg = s.cfg ∧ (startBulkRead a left caller s).schedule = s.schedule := by
  unfold startBulkRead
  simp

@[simp] theorem startSetBits_inputs (a m : Byte) (rest : List Out) (next : After) (s : State) :
    (startSetBits a m rest next s).cfg = s.cfg ∧ (startSetBits a m rest next s).schedule = s.schedule := by
  unfold startSetBits
  simp

@[simp] theorem startClearBits_inputs (a m : Byte) (next : After) (s : State) :
    (startClearBits a m next s).cfg = s.cfg ∧ (startClearBits a m next s).schedule = s.schedule := by
  unfold startClearBits
  simp

@[simp] theorem startIspres_inputs (caller : CommCaller) (s : State) :
    (startIspres caller s).cfg = s.cfg ∧ (startIspres caller s).schedule = s.schedule := by
  unfold startIspres
  simp

@[simp] theorem startGetuid_inputs (caller : CommCaller) (s : State) :
    (startGetuid caller s).cfg = s.cfg ∧ (startGetuid caller s).schedule = s.schedule := by
  unfold startGetuid
  simp

@[simp] theorem startCapture_inputs (s : State) :
    (startCapture s).cfg = s.cfg ∧ (startCapture s).schedule = s.schedule := by
  unfold startCapture
  simp

@[simp] theorem ispresState_inputs (c : Status) (s : State) :
    (ispresState c s).cfg = s.cfg ∧ (ispresState c s).schedule = s.schedule := by
  unfold ispresState; repeat' split
  all_goals simp

@[simp] theorem getuidState_inputs (c : Status) (s : State) :
    (getuidState c s).cfg = s.cfg ∧ (getuidState c s).schedule = s.schedule := by
  unfold getuidState; repeat' split
  all_goals simp

@[simp] theorem authEnd_inputs (c : Status) (s : State) :
    (authEnd c s).cfg = s.cfg ∧ (authEnd c s).schedule = s.schedule := by
  unfold authEnd; repeat' split
  all_goals simp

@[simp] theorem commReturned_inputs (c : Status) (s : State) :
    (commReturned c s).cfg = s.cfg ∧ (commReturned c s).schedule = s.schedule := by
  unfold commReturned
  simp

@[simp] theorem ispresReturned_inputs (c : Status) (s : State) :
    (ispresReturned c s).cfg = s.cfg ∧ (ispresReturned c s).schedule = s.schedule := by
  unfold ispresReturned; repeat' split
  all_goals simp

@[simp] theorem getuidReturned_inputs (c : Status) (s : State) :
    (getuidReturned c s).cfg = s.cfg ∧ (getuidReturned c s).schedule = s.schedule := by
  unfold getuidReturned
  simp

@[simp] theorem waitPresentReturned_inputs (c : Status) (s : State) :
    (waitPresentReturned c s).cfg = s.cfg ∧ (waitPresentReturned c s).schedule = s.schedule := by
  unfold waitPresentReturned; repeat' split
  all_goals simp

@[simp] theorem waitUidReturned_inputs (c : Status) (s : State) :
    (waitUidReturned c s).cfg = s.cfg ∧ (waitUidReturned c s).schedule = s.schedule := by
  unfold waitUidReturned; repeat' split
  all_goals simp

@[simp] theorem selectReturned_inputs (c : Status) (s : State) :
    (selectReturned c s).cfg = s.cfg ∧ (selectReturned c s).schedule = s.schedule := by
  unfold selectReturned; repeat' split
  all_goals simp

@[simp] theorem selectVerified_inputs (c : Status) (s : State) :
    (selectVerified c s).cfg = s.cfg ∧ (selectVerified c s).schedule = s.schedule := by
  unfold selectVerified; repeat' split
  all_goals simp

@[simp] theorem authReturned_inputs (c : Status) (s : State) :
    (authReturned c s).cfg = s.cfg ∧ (authReturned c s).schedule = s.schedule := by
  unfold authReturned; repeat' split
  all_goals simp

@[simp] theorem rdblkReturned_inputs (c : Status) (s : State) :
    (rdblkReturned c s).cfg = s.cfg ∧ (rdblkReturned c s).schedule = s.schedule := by
  unfold rdblkReturned; repeat' split
  all_goals simp

@[simp] theorem rdblkVerified_inputs (c : Status) (s : State) :
    (rdblkVerified c s).cfg = s.cfg ∧ (rdblkVerified c s).schedule = s.schedule := by
  unfold rdblkVerified; repeat' split
  all_goals simp

@[simp] theorem wrblkCommandReturned_inputs (c : Status) (s : State) :
    (wrblkCommandReturned c s).cfg = s.cfg ∧ (wrblkCommandReturned c s).schedule = s.schedule := by
  unfold wrblkCommandReturned; repeat' split
  all_goals simp

@[simp] theorem wrblkDataReturned_inputs (c : Status) (s : State) :
    (wrblkDataReturned c s).cfg = s.cfg ∧ (wrblkDataReturned c s).schedule = s.schedule := by
  unfold wrblkDataReturned; repeat' split
  all_goals simp

@[simp] theorem communicateReturns_inputs (caller : CommCaller) (c : Status) (s : State) :
    (communicateReturns caller c s).cfg = s.cfg ∧ (communicateReturns caller c s).schedule = s.schedule := by
  unfold communicateReturns; repeat' split
  all_goals simp

@[simp] theorem verifyReturns_inputs (caller : VerifyCaller) (c : Status) (s : State) :
    (verifyReturns caller c s).cfg = s.cfg ∧ (verifyReturns caller c s).schedule = s.schedule := by
  unfold verifyReturns; repeat' split
  all_goals simp

@[simp] theorem crcCommandReturned_inputs (c : Status) (s : State) :
    (crcCommandReturned c s).cfg = s.cfg ∧ (crcCommandReturned c s).schedule = s.schedule := by
  unfold crcCommandReturned
  simp

@[simp] theorem calculateCRCReturns_inputs (caller : CrcCaller) (c : Status) (s : State) :
    (calculateCRCReturns caller c s).cfg = s.cfg ∧ (calculateCRCReturns caller c s).schedule = s.schedule := by
  unfold calculateCRCReturns; repeat' split
  all_goals simp

@[simp] theorem initBooted_inputs (c : Status) (s : State) :
    (initBooted c s).cfg = s.cfg ∧ (initBooted c s).schedule = s.schedule := by
  unfold initBooted; repeat' split
  all_goals simp

@[simp] theorem selftestBooted_inputs (c : Status) (s : State) :
    (selftestBooted c s).cfg = s.cfg ∧ (selftestBooted c s).schedule = s.schedule := by
  unfold selftestBooted; repeat' split
  all_goals simp

@[simp] theorem waitForBootUpReturns_inputs (caller : BootCaller) (c : Status) (s : State) :
    (waitForBootUpReturns caller c s).cfg = s.cfg ∧ (waitForBootUpReturns caller c s).schedule = s.schedule := by
  unfold waitForBootUpReturns; repeat' split
  all_goals simp

@[simp] theorem checkErrorReturns_inputs (caller : ErrorCaller) (c : Status) (s : State) :
    (checkErrorReturns caller c s).cfg = s.cfg ∧ (checkErrorReturns caller c s).schedule = s.schedule := by
  unfold checkErrorReturns; repeat' split
  all_goals simp

@[simp] theorem rregAnswered_inputs (v : Byte) (s : State) :
    (rregAnswered v s).cfg = s.cfg ∧ (rregAnswered v s).schedule = s.schedule := by
  unfold rregAnswered
  simp

@[simp] theorem rregnAnswered_inputs (xs : List Byte) (s : State) :
    (rregnAnswered xs s).cfg = s.cfg ∧ (rregnAnswered xs s).schedule = s.schedule := by
  unfold rregnAnswered
  simp

@[simp] theorem captured_inputs (xs : List Byte) (s : State) :
    (captured xs s).cfg = s.cfg ∧ (captured xs s).schedule = s.schedule := by
  unfold captured
  simp

@[simp] theorem selftestJudged_inputs (xs : List Byte) (s : State) :
    (selftestJudged xs s).cfg = s.cfg ∧ (selftestJudged xs s).schedule = s.schedule := by
  unfold selftestJudged; repeat' split
  all_goals simp

@[simp] theorem authAnswered_inputs (v : Byte) (s : State) :
    (authAnswered v s).cfg = s.cfg ∧ (authAnswered v s).schedule = s.schedule := by
  unfold authAnswered; repeat' split
  all_goals simp

@[simp] theorem antennaIsOff_inputs (s : State) :
    (antennaIsOff s).cfg = s.cfg ∧ (antennaIsOff s).schedule = s.schedule := by
  unfold antennaIsOff
  simp

@[simp] theorem bulkReturns_inputs (caller : BulkCaller) (xs : List Byte) (s : State) :
    (bulkReturns caller xs s).cfg = s.cfg ∧ (bulkReturns caller xs s).schedule = s.schedule := by
  unfold bulkReturns; repeat' split
  all_goals simp

@[simp] theorem bootPolled_inputs (k : Nat) (caller : BootCaller) (v : Byte) (s : State) :
    (bootPolled k caller v s).cfg = s.cfg ∧ (bootPolled k caller v s).schedule = s.schedule := by
  unfold bootPolled; repeat' split
  all_goals simp

@[simp] theorem comPolled_inputs (k : Nat) (cmd : BitVec 4) (cap : Nat) (caller : CommCaller) (v : Byte) (s : State) :
    (comPolled k cmd cap caller v s).cfg = s.cfg ∧ (comPolled k cmd cap caller v s).schedule = s.schedule := by
  unfold comPolled; repeat' split
  all_goals simp

@[simp] theorem levelRead_inputs (cap : Nat) (c : Status) (caller : CommCaller) (v : Byte) (s : State) :
    (levelRead cap c caller v s).cfg = s.cfg ∧ (levelRead cap c caller v s).schedule = s.schedule := by
  unfold levelRead; repeat' split
  all_goals simp

@[simp] theorem crcPolled_inputs (k : Nat) (caller : CrcCaller) (v : Byte) (s : State) :
    (crcPolled k caller v s).cfg = s.cfg ∧ (crcPolled k caller v s).schedule = s.schedule := by
  unfold crcPolled; repeat' split
  all_goals simp

@[simp] theorem fillPolled_inputs (k : Nat) (v : Byte) (s : State) :
    (fillPolled k v s).cfg = s.cfg ∧ (fillPolled k v s).schedule = s.schedule := by
  unfold fillPolled; repeat' split
  all_goals simp

@[simp] theorem bulkRead_inputs (a : Byte) (left : Nat) (got : List Byte) (caller : BulkCaller) (v : Byte) (s : State) :
    (bulkRead a left got caller v s).cfg = s.cfg ∧ (bulkRead a left got caller v s).schedule = s.schedule := by
  unfold bulkRead; repeat' split
  all_goals simp

@[simp] theorem proceed_inputs (next : After) (s : State) :
    (proceed next s).cfg = s.cfg ∧ (proceed next s).schedule = s.schedule := by
  unfold proceed; repeat' split
  all_goals simp

@[simp] theorem answered_inputs (k : Await) (v : Byte) (s : State) :
    (answered k v s).cfg = s.cfg ∧ (answered k v s).schedule = s.schedule := by
  unfold answered; repeat' split
  all_goals simp

@[simp] theorem afterOutput_inputs (rest : List Out) (next : After) (s : State) :
    (afterOutput rest next s).cfg = s.cfg ∧ (afterOutput rest next s).schedule = s.schedule := by
  unfold afterOutput; repeat' split
  all_goals simp

/-- A sequencer step keeps the configuration and the schedule. -/
@[simp] theorem sequencerStep_inputs (s : State) :
    (sequencerStep s).cfg = s.cfg ∧ (sequencerStep s).schedule = s.schedule := by
  unfold sequencerStep; split
  all_goals simp

end Sys2Proof.Machine
end

