-- ==== Sys2Proof/Laws/Run.lean ====
section
/-! SUPPORT. Runs of the sequencer, one lemma per shared procedure: a row of outputs, a bulk read, a poll, and then
communicate, calculateCRC and waitForBootUp as a whole, under a script of answers. Each says what the run comes to:
the procedure's return to its caller in a state whose history, answers and receive registers are given. -/

namespace Sys2Proof.Machine

/-! Steps. -/

/-- With a legal configuration and no turn scheduled, a step is a sequencer step. -/
theorem step_quiet {s : State} (hc : configOk s.cfg = true) (hs : s.schedule = []) :
    step s = .next (sequencerStep s) := by simp [step, hc, hs]

@[simp] theorem sequencerStep_idle {s : State} (h : s.pos = .idle) : sequencerStep s = s := by
  simp [sequencerStep, h]

/-- The step at an output. -/
theorem sequencerStep_output {s : State} (h : s.pos = .idle) (o : Out) (rest : List Out) (next : After) :
    sequencerStep (toOutput o rest next s) = afterOutput rest next (drive o s) := by
  have : leavePosition (toOutput o rest next s) = s := by cases s; cases h; rfl
  simp [sequencerStep, this]

theorem answerTo_toInput (a b : Byte) (k : Await) (s : State) : answerTo a (toInput b k s) = answerTo a s := rfl

/-- The step at an input. -/
theorem sequencerStep_input {s : State} (h : s.pos = .idle) (a : Byte) (k : Await) :
    sequencerStep (toInput a k s) = answered k (answerTo a s) (afterRead a s) := by
  have : leavePosition (toInput a k s) = s := by cases s; cases h; rfl
  simp [sequencerStep, this, answerTo_toInput]

/-- A scripted answer is the next of the script. -/
theorem answerTo_cons {s : State} {v : Byte} {vs : List Byte} (h : s.answers = v :: vs) (a : Byte) :
    answerTo a s = v := by simp [answerTo, h]

/-- The state after events `es`, with the script cut to `ys`. -/
def State.moved (s : State) (es : List BusEvent) (ys : List Byte) : State :=
  { s with history := s.history ++ es, answers := ys }

theorem State.moved_moved (s : State) (es fs : List BusEvent) (xs ys : List Byte) :
    (s.moved es xs).moved fs ys = s.moved (es ++ fs) ys := by simp [State.moved]

theorem State.moved_self (s : State) : s.moved [] s.answers = s := by simp [State.moved]

@[simp] theorem State.moved_answers (s : State) (es : List BusEvent) (ys : List Byte) :
    (s.moved es ys).answers = ys := rfl
@[simp] theorem State.moved_pos (s : State) (es : List BusEvent) (ys : List Byte) : (s.moved es ys).pos = s.pos := rfl
@[simp] theorem State.moved_cfg (s : State) (es : List BusEvent) (ys : List Byte) : (s.moved es ys).cfg = s.cfg := rfl

/-- The step at an input whose answer is scripted. -/
theorem sequencerStep_scripted {s : State} (h : s.pos = .idle) (a : Byte) (k : Await) {v : Byte} {vs : List Byte}
    (ha : s.answers = v :: vs) : sequencerStep (toInput a k s) = answered k v (s.moved [.r a v] vs) := by
  rw [sequencerStep_input h, answerTo_cons ha]
  simp [afterRead, State.moved, answerTo_cons ha, ha]

theorem sequencerSteps_add (m n : Nat) (s : State) :
    sequencerSteps (m + n) s = sequencerSteps n (sequencerSteps m s) := by
  induction m generalizing s with
  | zero => simp [sequencerSteps]
  | succ m ih => simpa [sequencerSteps, Nat.succ_add] using ih (sequencerStep s)

theorem sequencerSteps_one (s : State) : sequencerSteps 1 s = sequencerStep s := rfl

/-! Rows of outputs. -/

/-- The event of a write. -/
def outEvent : Out → BusEvent
  | .write a v => .w a v
  | .pin l => .p l

/-- The writes of a row leave RST_N alone. -/
def isWrite : Out → Bool
  | .write _ _ => true
  | .pin _ => false

theorem drive_write_eq {o : Out} (h : isWrite o = true) (s : State) :
    drive o s = s.moved [outEvent o] s.answers := by cases o <;> simp_all [isWrite, drive, outEvent, State.moved]

/-- A row of writes runs to what follows it. -/
theorem writes_run (rest : List Out) (next : After) (o : Out) (s : State) (h : s.pos = .idle)
    (hw : isWrite o = true) (hr : rest.all isWrite = true) :
    sequencerSteps (rest.length + 1) (toOutput o rest next s) =
      proceed next (s.moved ((o :: rest).map outEvent) s.answers) := by
  induction rest generalizing o s with
  | nil => simp [sequencerSteps, sequencerStep_output h, drive_write_eq hw, afterOutput]
  | cons o' rest ih =>
    simp only [List.all_cons, Bool.and_eq_true] at hr
    rw [List.length_cons, Nat.add_comm, sequencerSteps_add, sequencerSteps_one, sequencerStep_output h,
      drive_write_eq hw]
    rw [show afterOutput (o' :: rest) next (s.moved [outEvent o] s.answers)
        = toOutput o' rest next (s.moved [outEvent o] s.answers) from rfl]
    rw [ih o' (s.moved [outEvent o] s.answers) h hr.1 hr.2, State.moved_answers, State.moved_moved]
    rfl

theorem writesOf_all_isWrite (a : Byte) (xs : List Byte) : (writesOf a xs).all isWrite = true := by
  simp [writesOf, isWrite]

theorem writesOf_outEvent (a : Byte) (xs : List Byte) : (writesOf a xs).map outEvent = writeEvents a xs := by
  simp [writesOf, writeEvents, outEvent, Function.comp_def]

/-! Bulk reads. -/

/-- A bulk read of scripted answers returns them in order (R69). -/
theorem bulk_run (a : Byte) (caller : BulkCaller) (xs ys got : List Byte) (v : Byte) (s : State) (h : s.pos = .idle)
    (ha : s.answers = v :: xs ++ ys) :
    sequencerSteps (xs.length + 1) (toInput a (.bulk a xs.length got caller) s) =
      bulkReturns caller (got ++ v :: xs) (s.moved (readEvents a (v :: xs)) ys) := by
  induction xs generalizing v got s with
  | nil =>
    simp only [List.length_nil, Nat.zero_add, sequencerSteps_one]
    rw [sequencerStep_scripted h _ _ ha]
    rfl
  | cons x xs ih =>
    rw [List.length_cons, Nat.add_comm, sequencerSteps_add, sequencerSteps_one,
      sequencerStep_scripted (vs := x :: xs ++ ys) h _ _ ha]
    rw [show ∀ t, answered (.bulk a (xs.length + 1) got caller) v t
        = toInput a (.bulk a xs.length (got ++ [v]) caller) t from fun _ => rfl]
    rw [ih (got ++ [v]) x (s.moved [.r a v] (x :: xs ++ ys)) h rfl, State.moved_moved]
    simp [readEvents]

/-! Polls. -/

/-- Polls that end nothing: each answer only advances the counter. The four poll loops are instances. -/
theorem misses_run (a : Byte) (K : Nat → Await) (ms ys : List Byte) (k : Nat) (s : State) (h : s.pos = .idle)
    (ha : s.answers = ms ++ ys)
    (hmiss : ∀ j < ms.length, ∀ v ∈ ms, ∀ t : State, t.cfg = s.cfg →
      answered (K (k + j)) v t = toInput a (K (k + j + 1)) t) :
    sequencerSteps ms.length (toInput a (K k) s) = toInput a (K (k + ms.length)) (s.moved (readEvents a ms) ys) := by
  induction ms generalizing k s with
  | nil => simp only [List.nil_append] at ha; subst ha; simp [sequencerSteps, readEvents, State.moved]
  | cons v ms ih =>
    have hnext := hmiss 0 (by simp) v (by simp) (s.moved [.r a v] (ms ++ ys)) rfl
    rw [List.length_cons, Nat.add_comm, sequencerSteps_add, sequencerSteps_one,
      sequencerStep_scripted (vs := ms ++ ys) h _ _ ha, ← Nat.add_zero k, hnext,
      ih (k + 0 + 1) (s.moved [.r a v] (ms ++ ys)) h rfl, State.moved_moved]
    · simp [readEvents, Nat.add_assoc]
    · intro j hj w hw t ht
      have := hmiss (j + 1) (by simp; omega) w (by simp [hw]) t ht
      simpa [Nat.add_assoc, Nat.add_comm 1] using this

/-- The bits a premise writes out are the machine's completion bits with M_ERRIRQ (R161, R162). -/
theorem endBits_eq (cfg : Config) (cmd : BitVec 4) : endBits cfg cmd = doneMask cfg cmd ||| cfg.mErrIrq := by
  unfold endBits doneMask; split <;> rfl

theorem comMiss_eq (cfg : Config) (cmd : BitVec 4) (v : Byte) :
    comMiss cfg cmd v = (!anyBit v cfg.mTimerIrq && !anyBit v (doneMask cfg cmd ||| cfg.mErrIrq)) := by
  simp [comMiss, endBits_eq, anyBit, bne]

theorem comHit_eq (cfg : Config) (cmd : BitVec 4) (v : Byte) :
    comHit cfg cmd v = (!anyBit v cfg.mTimerIrq && anyBit v (doneMask cfg cmd ||| cfg.mErrIrq)) := by
  simp [comHit, endBits_eq, anyBit, bne]

/-- Polls of REG_COMIRQ that end nothing (R162), while the budget lasts. -/
theorem comIrq_misses (cmd : BitVec 4) (cap : Nat) (caller : CommCaller) (ms ys : List Byte) (s : State)
    (h : s.pos = .idle) (ha : s.answers = ms ++ ys) (hk : ms.length < s.cfg.pollMax)
    (hm : ∀ v ∈ ms, comMiss s.cfg cmd v = true) :
    sequencerSteps ms.length (toInput s.cfg.regComIrq (.comIrq 0 cmd cap caller) s) =
      toInput s.cfg.regComIrq (.comIrq ms.length cmd cap caller) (s.moved (readEvents s.cfg.regComIrq ms) ys) := by
  have := misses_run s.cfg.regComIrq (fun k => .comIrq k cmd cap caller) ms ys 0 s h ha
    (by
      intro j hj v hv t ht
      have hv := hm v hv
      rw [comMiss_eq, Bool.and_eq_true, Bool.not_eq_true', Bool.not_eq_true'] at hv
      have : ¬ 0 + j + 1 = s.cfg.pollMax := by omega
      simp [answered, comPolled, ht, hv.1, hv.2]
      omega)
  simpa using this

/-- Polls of REG_DIVIRQ with M_CRCIRQ clear (R230), while the budget lasts. -/
theorem divIrq_misses (caller : CrcCaller) (ms ys : List Byte) (s : State) (h : s.pos = .idle)
    (ha : s.answers = ms ++ ys) (hk : ms.length < s.cfg.crcPollMax)
    (hm : ∀ v ∈ ms, anyBit v s.cfg.mCrcIrq = false) :
    sequencerSteps ms.length (toInput s.cfg.regDivIrq (.divIrq 0 caller) s) =
      toInput s.cfg.regDivIrq (.divIrq ms.length caller) (s.moved (readEvents s.cfg.regDivIrq ms) ys) := by
  have := misses_run s.cfg.regDivIrq (fun k => .divIrq k caller) ms ys 0 s h ha
    (by
      intro j hj v hv t ht
      simp [answered, crcPolled, ht, hm v hv]
      omega)
  simpa using this

/-- Polls of REG_COMMAND with M_POWERDOWN set (R130), below a finite budget or without one. -/
theorem boot_misses (caller : BootCaller) (ms ys : List Byte) (s : State) (h : s.pos = .idle)
    (ha : s.answers = ms ++ ys) (hk : bootBudgetLasts s.cfg ms.length)
    (hm : ∀ v ∈ ms, anyBit v s.cfg.mPowerDown = true) :
    sequencerSteps ms.length (startWaitForBootUp caller s) =
      toInput s.cfg.regCommand (.boot ms.length caller) (s.moved (readEvents s.cfg.regCommand ms) ys) := by
  have := misses_run s.cfg.regCommand (fun k => .boot k caller) ms ys 0 s h ha
    (by
      intro j hj v hv t ht
      have : ¬ s.cfg.bootPollMax = some (0 + j + 1) := fun e => by have := hk _ e; omega
      simp only [answered, bootPolled, ht, hm v hv, if_true, if_neg this])
  simpa [startWaitForBootUp] using this

/-- SELFTEST's fill polls below 64 bytes (R138), while the budget lasts. -/
theorem fill_misses (ms ys : List Byte) (s : State) (h : s.pos = .idle) (ha : s.answers = ms ++ ys)
    (hk : ms.length < s.cfg.selftestPollMax) (hm : ∀ v ∈ ms, (v &&& s.cfg.mLevel).toNat < 64) :
    sequencerSteps ms.length (toInput s.cfg.regFifoLevel (.fill 0) s) =
      toInput s.cfg.regFifoLevel (.fill ms.length) (s.moved (readEvents s.cfg.regFifoLevel ms) ys) := by
  have := misses_run s.cfg.regFifoLevel .fill ms ys 0 s h ha
    (by
      intro j hj v hv t ht
      have hv : ¬ 64 ≤ (v &&& t.cfg.mLevel).toNat := by have := hm v hv; rw [ht]; omega
      have : ¬ 0 + j + 1 = t.cfg.selftestPollMax := by rw [ht]; omega
      unfold answered fillPolled
      rw [ht]
      rw [ht] at hv this
      exact (if_neg hv).trans (if_neg this))
  simpa using this

/-! Procedures. -/

/-- A position that is idle stays so as the history and the script move on. -/
theorem State.moved_idle {s : State} (h : s.pos = .idle) (es : List BusEvent) (ys : List Byte) :
    (s.moved es ys).pos = .idle := h

/-- waitForBootUp, however it ends, returns its status (R130). -/
theorem boot_run (x : BootRun) (caller : BootCaller) (ys : List Byte) (s : State) (h : s.pos = .idle)
    (ha : s.answers = x.answers ++ ys) (hx : x.fits s.cfg) :
    sequencerSteps (x.events s.cfg).length (startWaitForBootUp caller s) =
      waitForBootUpReturns caller x.status (s.moved (x.events s.cfg) ys) := by
  obtain ⟨ms, e⟩ := x
  obtain ⟨hm, he⟩ := hx
  cases e with
  | exhausted =>
    obtain ⟨hne, hmax⟩ := he
    obtain ⟨ks, v, rfl⟩ := List.eq_nil_or_concat ms |>.resolve_left hne
    simp only [List.concat_eq_append] at *
    have ha' : s.answers = ks ++ (v :: ys) := by simp [ha, BootRun.answers, BootEnd.answers]
    have hn : (BootRun.events ⟨ks ++ [v], .exhausted⟩ s.cfg).length = ks.length + 1 := by
      simp [BootRun.events, BootRun.answers, BootEnd.answers]
    rw [hn, sequencerSteps_add, boot_misses caller ks (v :: ys) s h ha'
      (by intro n e; rw [e] at hmax; right; simp at hmax; omega) (fun w hw => hm w (by simp [hw])), sequencerSteps_one]
    rw [sequencerStep_scripted (vs := ys) (State.moved_idle h _ _) _ _ rfl, State.moved_moved]
    have hv : anyBit v s.cfg.mPowerDown = true := hm v (by simp)
    simp [answered, bootPolled, hv, hmax, BootRun.events, BootRun.answers, BootEnd.answers, readEvents, BootRun.status]
  | booted v =>
    obtain ⟨hk, hh⟩ := he
    have ha' : s.answers = ms ++ (v :: ys) := by simp [ha, BootRun.answers, BootEnd.answers]
    have hn : (BootRun.events ⟨ms, .booted v⟩ s.cfg).length = ms.length + 1 := by
      simp [BootRun.events, BootRun.answers, BootEnd.answers]
    rw [hn, sequencerSteps_add, boot_misses caller ms (v :: ys) s h ha' hk hm, sequencerSteps_one]
    rw [sequencerStep_scripted (vs := ys) (State.moved_idle h _ _) _ _ rfl, State.moved_moved]
    simp [answered, bootPolled, hh, BootRun.events, BootRun.answers, BootEnd.answers, readEvents, BootRun.status]

/-- communicate, steps 1 and 2 (R160): the outputs up to and with the command write. -/
theorem load_run (cmd : BitVec 4) (tx : List Byte) (cap : Nat) (caller : CommCaller) (s : State) (h : s.pos = .idle) :
    sequencerSteps (loadEvents s.cfg cmd tx).length (startCommunicate cmd tx cap caller s) =
      proceed (if cmd = s.cfg.cmdTransceive then .startSend cmd cap caller else .pollCom cmd cap caller)
        (({ s with rxlen := 0 } : State).moved (loadEvents s.cfg cmd tx) s.answers) := by
  have := writes_run
    (.write s.cfg.regComIrq s.cfg.irqClearAll :: .write s.cfg.regFifoLevel s.cfg.mFlush ::
      (writesOf s.cfg.regFifoData tx ++ [.write s.cfg.regCommand (commandByte cmd)]))
    (if cmd = s.cfg.cmdTransceive then .startSend cmd cap caller else .pollCom cmd cap caller)
    (.write s.cfg.regCommand (commandByte s.cfg.cmdIdle)) { s with rxlen := 0 } h rfl
    (by simp [isWrite, writesOf_all_isWrite])
  simpa [startCommunicate, loadEvents, outEvent, writesOf_outEvent] using this

/-- communicate, step 3 (R160): M_STARTSEND for a transceive, then the first poll. -/
theorem startSend_run (cmd : BitVec 4) (cap : Nat) (caller : CommCaller) (framing : Byte) (ys : List Byte) (s : State)
    (h : s.pos = .idle)
    (ha : s.answers = (if cmd = s.cfg.cmdTransceive then [framing] else []) ++ ys) :
    sequencerSteps (startSendEvents s.cfg cmd framing).length
        (proceed (if cmd = s.cfg.cmdTransceive then .startSend cmd cap caller else .pollCom cmd cap caller) s) =
      toInput s.cfg.regComIrq (.comIrq 0 cmd cap caller) (s.moved (startSendEvents s.cfg cmd framing) ys) := by
  by_cases hc : cmd = s.cfg.cmdTransceive
  · simp only [hc, if_true] at ha ⊢
    rw [show (startSendEvents s.cfg s.cfg.cmdTransceive framing).length = 1 + 1 by simp [startSendEvents],
      sequencerSteps_add, sequencerSteps_one, sequencerSteps_one]
    rw [show proceed (.startSend s.cfg.cmdTransceive cap caller) s
        = toInput s.cfg.regBitFraming
            (.setBits s.cfg.regBitFraming s.cfg.mStartSend [] (.pollCom s.cfg.cmdTransceive cap caller)) s from rfl,
      sequencerStep_scripted (vs := ys) h _ _ ha]
    rw [show ∀ t, answered (.setBits s.cfg.regBitFraming s.cfg.mStartSend []
        (.pollCom s.cfg.cmdTransceive cap caller)) framing t
        = toOutput (.write s.cfg.regBitFraming (framing ||| s.cfg.mStartSend)) []
            (.pollCom s.cfg.cmdTransceive cap caller) t from fun _ => rfl,
      sequencerStep_output (State.moved_idle h _ _)]
    simp [afterOutput, proceed, drive, startSendEvents, State.moved]
  · simp only [if_neg hc, List.nil_append] at ha ⊢
    simp [startSendEvents, hc, sequencerSteps, proceed, ← ha, State.moved]

/-- The read-back of no bytes (R160). -/
theorem levelRead_zero {cap : Nat} {c : Status} {caller : CommCaller} {v : Byte} {s : State}
    (h : min (v &&& s.cfg.mLevel).toNat cap = 0) :
    levelRead cap c caller v s = communicateReturns caller c (receive [] s) := by
  unfold levelRead; split
  · rfl
  · omega

/-- The read-back of some bytes (R160). -/
theorem levelRead_succ {cap left : Nat} {c : Status} {caller : CommCaller} {v : Byte} {s : State}
    (h : min (v &&& s.cfg.mLevel).toNat cap = left + 1) :
    levelRead cap c caller v s =
      toInput s.cfg.regFifoData (.bulk s.cfg.regFifoData left [] (.communicate c caller)) s := by
  unfold levelRead; split
  · omega
  · rename_i n hn
    rw [show n = left by omega]; rfl

/-- communicate's poll, checkError and read-back, however the call ends (R160, R162, R163). -/
theorem poll_run (x : ComRun) (cmd : BitVec 4) (cap : Nat) (caller : CommCaller) (ys : List Byte)
    (s : State) (h : s.pos = .idle) (hp : s.cfg.pollMax ≠ 0)
    (ha : s.answers = x.misses ++ (x.ending.answers ++ ys)) (hx : x.fits s.cfg cmd cap) (h0 : s.rxlen = 0) :
    sequencerSteps (x.misses.length + (x.ending.events s.cfg).length)
        (toInput s.cfg.regComIrq (.comIrq 0 cmd cap caller) s) =
      communicateReturns caller (x.status s.cfg) (receive x.data
        (s.moved (readEvents s.cfg.regComIrq x.misses ++ x.ending.events s.cfg) ys)) := by
  obtain ⟨framing, ms, e⟩ := x
  obtain ⟨hm, he⟩ := hx
  have hmiss : ∀ v ∈ ms, anyBit v s.cfg.mTimerIrq = false ∧ anyBit v (doneMask s.cfg cmd ||| s.cfg.mErrIrq) = false := by
    intro v hv
    have := hm v hv
    simpa only [comMiss_eq, Bool.and_eq_true, Bool.not_eq_true'] using this
  have hnone : ∀ t : State, t.rxlen = 0 → receive [] t = t := fun t ht => by cases t; cases ht; simp [receive]
  cases e with
  | exhausted =>
    obtain ⟨ks, v, rfl⟩ := List.eq_nil_or_concat ms |>.resolve_left
      (by rintro rfl; exact hp he.symm)
    simp only [List.concat_eq_append] at *
    have hk : ks.length + 1 = s.cfg.pollMax := by simpa using he
    have ha' : s.answers = ks ++ (v :: ys) := by simp [ha, ComEnd.answers]
    rw [show (ks ++ [v]).length + (ComEnd.events s.cfg .exhausted).length = ks.length + 1 by simp [ComEnd.events],
      sequencerSteps_add, comIrq_misses cmd cap caller ks (v :: ys) s h ha' (by omega)
        (fun w hw => hm w (by simp [hw])), sequencerSteps_one,
      sequencerStep_scripted (vs := ys) (State.moved_idle h _ _) _ _ rfl, State.moved_moved]
    have hv := hmiss v (by simp)
    simp only [ComRun.data, ComRun.status, ComEnd.events, List.append_nil]
    rw [hnone (s.moved _ _) h0]
    simp [answered, comPolled, hv.1, hv.2, hk, readEvents]
  | timer v =>
    obtain ⟨hk, hv⟩ := he
    rw [show (ComEnd.events s.cfg (.timer v)).length = 1 from rfl, sequencerSteps_add,
      comIrq_misses cmd cap caller ms (v :: ys) s h ha hk hm, sequencerSteps_one,
      sequencerStep_scripted (vs := ys) (State.moved_idle h _ _) _ _ rfl, State.moved_moved]
    simp only [ComRun.data, ComRun.status, ComEnd.events]
    rw [hnone (s.moved _ _) h0]
    simp [answered, comPolled, hv]
  | failed v e =>
    obtain ⟨hk, hv, he1, he2⟩ := he
    simp only [comHit_eq, Bool.and_eq_true, Bool.not_eq_true'] at hv
    rw [show (ComEnd.events s.cfg (.failed v e)).length = 1 + 1 from rfl, sequencerSteps_add,
      comIrq_misses cmd cap caller ms (v :: e :: ys) s h ha hk hm, sequencerSteps_add, sequencerSteps_one (toInput _ _ _),
      sequencerStep_scripted (vs := e :: ys) (State.moved_idle h _ _) _ _ rfl, State.moved_moved]
    rw [show ∀ t : State, t.cfg = s.cfg → answered (.comIrq ms.length cmd cap caller) v t
        = toInput s.cfg.regError (.error (.communicate cap caller)) t from fun t ht => by
      simp [answered, comPolled, ht, hv.1, hv.2, startCheckError]]
    rotate_left
    · rfl
    rw [sequencerSteps_one, sequencerStep_scripted (vs := ys) (State.moved_idle h _ _) _ _ rfl, State.moved_moved]
    simp only [ComRun.data, ComRun.status, ComEnd.events]
    rw [hnone (s.moved _ _) h0]
    simp [answered, checkErrorReturns, he1, he2]
  | readBack v e level data =>
    obtain ⟨hk, hv, hc, hd⟩ := he
    simp only [comHit_eq, Bool.and_eq_true, Bool.not_eq_true'] at hv
    have ha1 : s.answers = ms ++ (v :: e :: level :: (data ++ ys)) := by simp [ha, ComEnd.answers]
    rw [show (ComEnd.events s.cfg (.readBack v e level data)).length = 1 + (1 + (1 + data.length)) by
        simp [ComEnd.events]; omega,
      sequencerSteps_add, comIrq_misses cmd cap caller ms _ s h ha1 hk hm, sequencerSteps_add, sequencerSteps_one,
      sequencerStep_scripted (vs := e :: level :: (data ++ ys)) (State.moved_idle h _ _) _ _ rfl, State.moved_moved]
    rw [show ∀ t : State, t.cfg = s.cfg → answered (.comIrq ms.length cmd cap caller) v t
        = toInput s.cfg.regError (.error (.communicate cap caller)) t from fun t ht => by
      simp [answered, comPolled, ht, hv.1, hv.2, startCheckError]]
    rotate_left
    · rfl
    rw [sequencerSteps_add, sequencerSteps_one,
      sequencerStep_scripted (vs := level :: (data ++ ys)) (State.moved_idle h _ _) _ _ rfl, State.moved_moved]
    rw [show ∀ t : State, t.cfg = s.cfg → answered (.error (.communicate cap caller)) e t
        = toInput s.cfg.regFifoLevel (.level cap (errorStatus s.cfg e) caller) t from fun t ht => by
      simp [answered, checkErrorReturns, ht, hc]]
    rotate_left
    · rfl
    rw [sequencerSteps_add, sequencerSteps_one,
      sequencerStep_scripted (vs := data ++ ys) (State.moved_idle h _ _) _ _ rfl, State.moved_moved]
    cases data with
    | nil =>
      have : min (level &&& s.cfg.mLevel).toNat cap = 0 := by simpa using hd.symm
      rw [show ∀ t : State, t.cfg = s.cfg → answered (.level cap (errorStatus s.cfg e) caller) level t
          = communicateReturns caller (errorStatus s.cfg e) (receive [] t) from
        fun t ht => levelRead_zero (ht.symm ▸ this)]
      rotate_left
      · rfl
      simp [sequencerSteps, readEvents, ComRun.data, ComRun.status, ComEnd.events]
    | cons b bs =>
      have : min (level &&& s.cfg.mLevel).toNat cap = bs.length + 1 := by simpa using hd.symm
      rw [show ∀ t : State, t.cfg = s.cfg → answered (.level cap (errorStatus s.cfg e) caller) level t
          = toInput s.cfg.regFifoData
              (.bulk s.cfg.regFifoData bs.length [] (.communicate (errorStatus s.cfg e) caller)) t from
        fun t ht => (levelRead_succ (ht.symm ▸ this)).trans (by rw [ht])]
      rotate_left
      · rfl
      rw [List.length_cons, bulk_run s.cfg.regFifoData _ bs ys [] b _ (State.moved_idle h _ _) (by simp),
        State.moved_moved]
      simp [bulkReturns, readEvents, ComRun.data, ComRun.status, ComEnd.events]

/-- communicate, however the call ends, returns its status with the bytes received (R160). -/
theorem communicate_run (x : ComRun) (cmd : BitVec 4) (tx : List Byte) (cap : Nat) (caller : CommCaller)
    (ys : List Byte) (s : State) (h : s.pos = .idle) (hp : s.cfg.pollMax ≠ 0)
    (ha : s.answers = x.answers s.cfg cmd ++ ys) (hx : x.fits s.cfg cmd cap) :
    sequencerSteps (x.events s.cfg cmd tx).length (startCommunicate cmd tx cap caller s) =
      communicateReturns caller (x.status s.cfg) (receive x.data (s.moved (x.events s.cfg cmd tx) ys)) := by
  have hn : (x.events s.cfg cmd tx).length = (loadEvents s.cfg cmd tx).length +
      ((startSendEvents s.cfg cmd x.framing).length + (x.misses.length + (x.ending.events s.cfg).length)) := by
    simp [ComRun.events]
  rw [hn, sequencerSteps_add, load_run cmd tx cap caller s h]
  have h2 := startSend_run cmd cap caller x.framing (x.misses ++ (x.ending.answers ++ ys))
    (({ s with rxlen := 0 } : State).moved (loadEvents s.cfg cmd tx) s.answers) h
    (by simp [State.moved, ha, ComRun.answers])
  rw [State.moved_moved] at h2
  rw [sequencerSteps_add]
  refine (congrArg (sequencerSteps _) h2).trans ?_
  refine (poll_run x cmd cap caller ys
    (({ s with rxlen := 0 } : State).moved (loadEvents s.cfg cmd tx ++ startSendEvents s.cfg cmd x.framing)
      (x.misses ++ (x.ending.answers ++ ys))) h hp rfl hx rfl).trans ?_
  rw [State.moved_moved]
  simp [receive, State.moved, ComRun.events]

/-- A card command's exchange (R181, R182, R211): the framing write, then communicate. -/
theorem frame_run (x : ComRun) (framing : Byte) (tx : List Byte) (caller : CommCaller) (ys : List Byte)
    (s : State) (h : s.pos = .idle) (hp : s.cfg.pollMax ≠ 0) (ha : s.answers = x.frameAnswers s.cfg ++ ys)
    (hx : x.fitsFrame s.cfg) :
    sequencerSteps (x.frameEvents s.cfg framing tx).length (startFrame framing tx caller s) =
      communicateReturns caller (x.status s.cfg) (receive x.data (s.moved (x.frameEvents s.cfg framing tx) ys)) := by
  rw [show (x.frameEvents s.cfg framing tx).length = 1 + (x.events s.cfg s.cfg.cmdTransceive tx).length by
    simp [ComRun.frameEvents]; omega]
  rw [sequencerSteps_add, sequencerSteps_one]
  rw [show startFrame framing tx caller s = toOutput (.write s.cfg.regBitFraming framing) []
    (.exchange s.cfg.cmdTransceive tx 64 caller) s from rfl, sequencerStep_output h]
  rw [show afterOutput [] (.exchange s.cfg.cmdTransceive tx 64 caller) (drive (.write s.cfg.regBitFraming framing) s)
    = startCommunicate s.cfg.cmdTransceive tx 64 caller (s.moved [.w s.cfg.regBitFraming framing] s.answers) from rfl]
  have := communicate_run x s.cfg.cmdTransceive tx 64 caller ys
    (s.moved [.w s.cfg.regBitFraming framing] s.answers) h hp ha hx
  simp only [State.moved_cfg, State.moved_moved] at this
  exact this

/-- calculateCRC up to its poll (R230). -/
theorem crcLoad_run (data : List Byte) (caller : CrcCaller) (s : State) (h : s.pos = .idle) :
    sequencerSteps (crcLoadEvents s.cfg data).length (startCalculateCRC data caller s) =
      toInput s.cfg.regDivIrq (.divIrq 0 caller) (s.moved (crcLoadEvents s.cfg data) s.answers) := by
  have := writes_run
    (.write s.cfg.regDivIrq s.cfg.divIrqClearCrc :: .write s.cfg.regFifoLevel s.cfg.mFlush ::
      (writesOf s.cfg.regFifoData data ++ [.write s.cfg.regCommand (commandByte s.cfg.cmdCalcCrc)]))
    (.pollCrc caller) (.write s.cfg.regCommand (commandByte s.cfg.cmdIdle)) s h rfl
    (by simp [isWrite, writesOf_all_isWrite])
  simpa [startCalculateCRC, crcLoadEvents, outEvent, writesOf_outEvent, proceed] using this

/-- CRCRES as a CRC calculation leaves it (R230, R231). -/
def State.withCrc (s : State) (x : CrcRun) : State := { s with crcres := x.result s.crcres }

/-- calculateCRC, however the call ends, returns its status with the result in CRCRES (R230). -/
theorem crc_run (x : CrcRun) (data : List Byte) (caller : CrcCaller) (ys : List Byte) (s : State) (h : s.pos = .idle)
    (hp : s.cfg.crcPollMax ≠ 0) (ha : s.answers = x.answers ++ ys) (hx : x.fits s.cfg) :
    sequencerSteps (x.events s.cfg data).length (startCalculateCRC data caller s) =
      calculateCRCReturns caller x.status ((s.moved (x.events s.cfg data) ys).withCrc x) := by
  obtain ⟨ms, e⟩ := x
  obtain ⟨hm, he⟩ := hx
  have hn : (CrcRun.events ⟨ms, e⟩ s.cfg data).length =
      (crcLoadEvents s.cfg data).length + (ms.length + (e.events s.cfg).length) := by
    simp [CrcRun.events]
  rw [hn, sequencerSteps_add, crcLoad_run data caller s h]
  cases e with
  | exhausted =>
    obtain ⟨ks, v, rfl⟩ := List.eq_nil_or_concat ms |>.resolve_left (by rintro rfl; exact hp he.symm)
    simp only [List.concat_eq_append] at *
    have hk : ks.length + 1 = s.cfg.crcPollMax := by simpa using he
    have h1 := divIrq_misses caller ks (v :: ys)
      (s.moved (crcLoadEvents s.cfg data) s.answers) h (by simp [ha, CrcRun.answers, CrcEnd.answers])
      (by simp only [State.moved_cfg]; omega) (fun w hw => hm w (by simp [hw]))
    simp only [State.moved_cfg, State.moved_moved] at h1
    rw [show (ks ++ [v]).length + (CrcEnd.events s.cfg .exhausted).length = ks.length + 1 by simp [CrcEnd.events],
      sequencerSteps_add, h1, sequencerSteps_one,
      sequencerStep_scripted (vs := ys) (State.moved_idle h _ _) _ _ rfl, State.moved_moved]
    have hv := hm v (by simp)
    rw [show ∀ t : State, t.withCrc ⟨ks ++ [v], .exhausted⟩ = t from fun t => rfl]
    simp [answered, crcPolled, hv, hk, readEvents, CrcRun.status, CrcRun.events, CrcEnd.events]
  | ready v hi lo =>
    obtain ⟨hk, hh⟩ := he
    have h1 := divIrq_misses caller ms (v :: hi :: lo :: ys)
      (s.moved (crcLoadEvents s.cfg data) s.answers) h (by simp [ha, CrcRun.answers, CrcEnd.answers]) hk hm
    simp only [State.moved_cfg, State.moved_moved] at h1
    rw [show (CrcEnd.events s.cfg (.ready v hi lo)).length = 1 + (1 + 1) from rfl, sequencerSteps_add, h1,
      sequencerSteps_add, sequencerSteps_one,
      sequencerStep_scripted (vs := hi :: lo :: ys) (State.moved_idle h _ _) _ _ rfl, State.moved_moved]
    rw [show ∀ t : State, t.cfg = s.cfg → answered (.divIrq ms.length caller) v t
        = toInput s.cfg.regCrcResultH (.crcHigh caller) t from fun t ht => by simp [answered, crcPolled, ht, hh]]
    rotate_left
    · rfl
    rw [sequencerSteps_add, sequencerSteps_one, sequencerSteps_one,
      sequencerStep_scripted (vs := lo :: ys) (State.moved_idle h _ _) _ _ rfl, State.moved_moved]
    rw [show ∀ t : State, t.cfg = s.cfg → answered (.crcHigh caller) hi t
        = toInput s.cfg.regCrcResultL (.crcLow hi caller) t from fun t ht => by simp [answered, ht]]
    rotate_left
    · rfl
    rw [sequencerStep_scripted (vs := ys) (State.moved_idle h _ _) _ _ rfl, State.moved_moved]
    simp [answered, CrcRun.events, CrcEnd.events, readEvents, CrcRun.status, State.withCrc, CrcRun.result, storeCrc]

/-- A frame sent with its CRC (R185, R211), when the CRC is ready in time: the CRC, the framing write, the exchange of
the frame and its two CRC bytes, low byte first. -/
theorem send_run (x : CrcRun) (e : ComRun) (body : List Byte) (caller : CommCaller) (ys : List Byte)
    (s : State) (h : s.pos = .idle) (hp : s.cfg.pollMax ≠ 0) (hq : s.cfg.crcPollMax ≠ 0)
    (ha : s.answers = x.answers ++ (e.frameAnswers s.cfg ++ ys)) (hx : x.fits s.cfg) (hok : x.status = .ok)
    (he : e.fitsFrame s.cfg) :
    sequencerSteps ((x.events s.cfg body).length +
          (e.frameEvents s.cfg s.cfg.framingFull (body ++ (x.result s.crcres).toList)).length)
        (startSendWithCRC body caller s) =
      communicateReturns caller (e.status s.cfg) (receive e.data
        ((s.moved (x.events s.cfg body ++
          e.frameEvents s.cfg s.cfg.framingFull (body ++ (x.result s.crcres).toList)) ys).withCrc x)) := by
  rw [sequencerSteps_add, startSendWithCRC, crc_run x body _ _ s h hq ha hx, hok]
  have := frame_run e s.cfg.framingFull (body ++ (x.result s.crcres).toList) caller ys
    ((s.moved (x.events s.cfg body) (e.frameAnswers s.cfg ++ ys)).withCrc x) h hp rfl he
  refine this.trans ?_
  congr 2
  simp [State.withCrc, State.moved]

/-- verifyCRC (R234), however its CRC calculation ends: TimeOut, or the comparison of RXBUF[k..k+1] with the result. -/
theorem verify_run (z : CrcRun) (k : Nat) (caller : VerifyCaller) (ys : List Byte) (s : State) (h : s.pos = .idle)
    (hp : s.cfg.crcPollMax ≠ 0) (ha : s.answers = z.answers ++ ys) (hz : z.fits s.cfg) (hk : k + 1 < 64) :
    sequencerSteps (z.events s.cfg (firstBytes k s.rxbuf)).length (startVerifyCRC k caller s) =
      verifyReturns caller
        (if z.status ≠ .ok then .timeOut
          else if z.result s.crcres = #v[s.rxbuf[k], s.rxbuf[k + 1]] then .ok else .crcError)
        ((s.moved (z.events s.cfg (firstBytes k s.rxbuf)) ys).withCrc z) := by
  rw [startVerifyCRC, crc_run z _ _ ys s h hp ha hz]
  obtain ⟨ms, e⟩ := z
  cases e with
  | exhausted => rfl
  | ready v hi lo =>
    have hm : crcMatches k ((s.moved (CrcRun.events ⟨ms, .ready v hi lo⟩ s.cfg (firstBytes k s.rxbuf)) ys).withCrc
        ⟨ms, .ready v hi lo⟩) = decide ((#v[lo, hi] : Vector Byte 2) = #v[s.rxbuf[k], s.rxbuf[k + 1]]) := by
      simp only [crcMatches, State.withCrc, CrcRun.result, State.moved]
      rw [Vector.getElem?_eq_getElem (by omega), Vector.getElem?_eq_getElem hk]
      have hv : ∀ a b c d : Byte, ((#v[a, b] : Vector Byte 2) = #v[c, d]) ↔ (c = a ∧ d = b) := by
        intro a b c d
        constructor
        · intro e
          exact ⟨(congrArg (fun w => w[0]) e).symm, (congrArg (fun w => w[1]) e).symm⟩
        · rintro ⟨rfl, rfl⟩; rfl
      rw [Bool.eq_iff_iff, decide_eq_true_eq, hv]
      show (_ == lo && _ == hi) = true ↔ _
      rw [Bool.and_eq_true, beq_iff_eq, beq_iff_eq]
      rfl
    simp only [calculateCRCReturns, verifyStatus, CrcRun.status, hm]
    simp [CrcRun.result]

/-! Commands. -/

/-- An undisturbed machine runs as its sequencer does. -/
theorem run_quiet (n : Nat) (s : State) (hc : configOk s.cfg = true) (hs : s.schedule = []) :
    Host.Core.run Sys2Proof.core n s = .next (sequencerSteps n s) := by
  induction n generalizing s with
  | zero => rfl
  | succ n ih =>
    have : Sys2Proof.core.step s = .next (sequencerStep s) := step_quiet hc hs
    simp only [Host.Core.run, this, sequencerSteps]
    exact ih _ (by simp [hc]) (by simp [hs])

/-- A command that is accepted with `t` and whose `n` sequencer steps come to `u` completes there. -/
theorem completes_of {i : Instr} {s t u : State} {n : Nat} (h : exec i s = .next t) (hc : configOk t.cfg = true)
    (hs : t.schedule = []) (hn : sequencerSteps n t = u) : CompletesIn i s n u :=
  ⟨t, h, by rw [run_quiet n t hc hs, hn]⟩

/-- Everything a legal configuration says (R76, R77, R9). -/
theorem configOk_iff (cfg : Config) : configOk cfg = true ↔
    (∀ a ∈ registerParameters cfg, isChipAddr a = true) ∧ (∀ e ∈ cfg.initSeq, isChipAddr e.1 = true) ∧
      cfg.pollMax ≠ 0 ∧ cfg.crcPollMax ≠ 0 ∧ cfg.selftestPollMax ≠ 0 ∧ cfg.selftestZeros + 1 ≤ 64 := by
  simp only [configOk, Bool.and_eq_true, List.all_eq_true, bne_iff_ne, decide_eq_true_eq, and_assoc]

theorem configOk_pollMax {cfg : Config} (h : configOk cfg = true) : cfg.pollMax ≠ 0 :=
  ((configOk_iff cfg).1 h).2.2.1

theorem configOk_crcPollMax {cfg : Config} (h : configOk cfg = true) : cfg.crcPollMax ≠ 0 :=
  ((configOk_iff cfg).1 h).2.2.2.1

theorem State.ready_idle {s : State} (h : s.ready) : s.pos = .idle := (busy_eq_false_iff s).1 h.2.1

/-- A command within its limits, issued at a ready state, completes where its sequencer steps come to. -/
theorem completes_start {i : Instr} {s u : State} {n : Nat} (h : s.ready) (hw : i.wellFormed s.cfg = true)
    (hc : (startOf i { s with op := i.opcode }).cfg = s.cfg)
    (hs : (startOf i { s with op := i.opcode }).schedule = s.schedule)
    (hn : sequencerSteps n (startOf i { s with op := i.opcode }) = u) : CompletesIn i s n u :=
  completes_of (exec_accepts h.2.1 hw) (by rw [hc]; exact h.1) (by rw [hs]; exact h.2.2) hn

/-- The reset pulse of HRST and INIT (R132, R137), up to the boot wait. -/
theorem pulse_run (caller : BootCaller) (s : State) (h : s.pos = .idle) :
    sequencerSteps 2 (toOutput (.pin false) [.pin true] (.pollBoot caller) s) =
      startWaitForBootUp caller { s with history := s.history ++ [.p false, .p true], rstN := true } := by
  rw [show 2 = 1 + 1 from rfl, sequencerSteps_add, sequencerSteps_one, sequencerSteps_one, sequencerStep_output h]
  simp only [afterOutput]
  rw [sequencerStep_output (by simpa [drive] using h)]
  simp [afterOutput, proceed, drive]

/-- The soft-reset write of SRST and SELFTEST (R133, R138), up to the boot wait. -/
theorem softReset_run (caller : BootCaller) (s : State) (h : s.pos = .idle) (v : Byte) :
    sequencerSteps 1 (toOutput (.write s.cfg.regCommand v) [] (.pollBoot caller) s) =
      startWaitForBootUp caller { s with history := s.history ++ [.w s.cfg.regCommand v] } := by
  rw [sequencerSteps_one, sequencerStep_output h]
  simp [afterOutput, proceed, drive]

end Sys2Proof.Machine
end

