-- ==== Sys2Proof/Laws/Commands.lean ====
section
/-! SUPPORT. Runs inside single commands: SELFTEST's fill poll with its capture (R138), and WAITUID's two bodies (R184)
with what ISPRES and GETUID decide from a received frame (R181, R182). -/

namespace Sys2Proof.Machine

/-! SELFTEST. -/

/-- The fill poll when its budget runs out (R138): idle, self-test off, TimeOut. -/
theorem fill_exhausted_run (ms ys : List Byte) (s : State) (h : s.pos = .idle) (ha : s.answers = ms ++ ys)
    (hl : ms.length = s.cfg.selftestPollMax) (hp : s.cfg.selftestPollMax ≠ 0)
    (hm : ∀ v ∈ ms, (v &&& s.cfg.mLevel).toNat < 64) :
    sequencerSteps (ms.length + 2) (toInput s.cfg.regFifoLevel (.fill 0) s) =
      finish .timeOut false (s.moved (readEvents s.cfg.regFifoLevel ms ++
        [.w s.cfg.regCommand (commandByte s.cfg.cmdIdle), .w s.cfg.regAutoTest s.cfg.autoTestOff]) ys) := by
  obtain ⟨ks, v, rfl⟩ := List.eq_nil_or_concat ms |>.resolve_left (by rintro rfl; simp at hl; omega)
  simp only [List.concat_eq_append] at *
  have hk : ks.length + 1 = s.cfg.selftestPollMax := by simpa using hl
  rw [show (ks ++ [v]).length + 2 = ks.length + (1 + (1 + 1)) by simp, sequencerSteps_add,
    fill_misses ks (v :: ys) s h (by simpa using ha) (by omega) (fun w hw => hm w (by simp [hw])), sequencerSteps_add,
    sequencerSteps_one, sequencerStep_scripted (vs := ys) (State.moved_idle h _ _) _ _ rfl, State.moved_moved]
  have hv : ¬ 64 ≤ (v &&& s.cfg.mLevel).toNat := by have := hm v (by simp); omega
  have hans : ∀ t : State, t.cfg = s.cfg → answered (.fill ks.length) v t =
      toOutput (.write s.cfg.regCommand (commandByte s.cfg.cmdIdle)) [.write s.cfg.regAutoTest s.cfg.autoTestOff]
        .fillTimeOut t := by
    intro t ht; unfold answered fillPolled; rw [ht]
    exact (if_neg hv).trans (if_pos hk)
  rw [hans (s.moved _ _) rfl]
  refine (writes_run [.write s.cfg.regAutoTest s.cfg.autoTestOff] .fillTimeOut _ _ (State.moved_idle h _ _)
    rfl rfl).trans ?_
  simp [proceed, State.moved, outEvent, readEvents]

/-- The fill poll when the FIFO fills (R138): idle, 64 bytes read, self-test off, and the comparison. -/
theorem fill_capture_run (ms ys xs : List Byte) (full : Byte) (s : State) (h : s.pos = .idle)
    (ha : s.answers = ms ++ full :: (xs ++ ys)) (hl : ms.length < s.cfg.selftestPollMax)
    (hf : 64 ≤ (full &&& s.cfg.mLevel).toNat) (hx : xs.length = 64)
    (hm : ∀ v ∈ ms, (v &&& s.cfg.mLevel).toNat < 64) :
    sequencerSteps (ms.length + 1 + 1 + 64 + 1) (toInput s.cfg.regFifoLevel (.fill 0) s) =
      selftestJudged xs (s.moved (readEvents s.cfg.regFifoLevel (ms ++ [full]) ++
        [.w s.cfg.regCommand (commandByte s.cfg.cmdIdle)] ++ readEvents s.cfg.regFifoData xs ++
        [.w s.cfg.regAutoTest s.cfg.autoTestOff]) ys) := by
  obtain ⟨b, bs, rfl⟩ : ∃ b bs, xs = b :: bs := by
    cases xs with
    | nil => simp at hx
    | cons b bs => exact ⟨b, bs, rfl⟩
  have hbs : bs.length = 63 := by simpa using hx
  rw [sequencerSteps_add, sequencerSteps_add, sequencerSteps_add, sequencerSteps_add,
    fill_misses ms _ s h ha hl hm, sequencerSteps_one, sequencerSteps_one, sequencerSteps_one,
    sequencerStep_scripted (vs := b :: bs ++ ys) (State.moved_idle h _ _) _ _ rfl, State.moved_moved]
  have hans : ∀ t : State, t.cfg = s.cfg → answered (.fill ms.length) full t =
      toOutput (.write s.cfg.regCommand (commandByte s.cfg.cmdIdle)) [] .capture t := by
    intro t ht; unfold answered fillPolled; rw [ht]
    exact if_pos hf
  rw [hans (s.moved _ _) rfl, sequencerStep_output (State.moved_idle h _ _)]
  rw [show ∀ t : State, t.cfg = s.cfg →
      afterOutput [] .capture (drive (.write s.cfg.regCommand (commandByte s.cfg.cmdIdle)) t) =
        toInput s.cfg.regFifoData (.bulk s.cfg.regFifoData 63 [] .selftest)
          (t.moved [.w s.cfg.regCommand (commandByte s.cfg.cmdIdle)] t.answers) from fun t ht => by rw [← ht]; rfl]
  rotate_left
  · rfl
  have hb := bulk_run s.cfg.regFifoData .selftest bs ys [] b
    ((s.moved (readEvents s.cfg.regFifoLevel ms ++ [.r s.cfg.regFifoLevel full]) (b :: bs ++ ys)).moved
      [.w s.cfg.regCommand (commandByte s.cfg.cmdIdle)] (b :: bs ++ ys)) h rfl
  rw [hbs] at hb
  rw [State.moved_answers, show (64 : Nat) = 63 + 1 from rfl, hb]
  rw [show ∀ t, bulkReturns .selftest ([] ++ b :: bs) t =
    toOutput (.write t.cfg.regAutoTest t.cfg.autoTestOff) [] (.judge (b :: bs)) t from fun _ => rfl]
  rw [sequencerStep_output (by simpa using h)]
  simp [afterOutput, proceed, drive, State.moved, readEvents]

/-! ISPRES, GETUID, WAITUID. -/

/-- A card command's exchange receives at most 64 bytes (R160). -/
theorem ComRun.data_length_le {x : ComRun} {cfg : Config} (hx : x.fitsFrame cfg) : x.data.length ≤ 64 := by
  obtain ⟨_, h⟩ := hx
  unfold ComRun.data
  split
  · rename_i he; rw [he] at h; have := h.2.2.2; omega
  · simp

/-- GETUID's copy (R182), when RXBUF holds the bytes just received. -/
theorem copyUid_received {t : State} {xs : List Byte} {b : Vector Byte 64} (h1 : t.rxlen = xs.length)
    (h2 : t.rxbuf = storeBytes xs b) (h3 : xs.length ≤ 64) :
    copyUid t = { t with uid := storeBytes (xs.take 5) t.uid } := by
  unfold copyUid
  rw [h1, h2, firstBytes_storeBytes _ _ _ (by omega) (by omega), Nat.min_comm, ← List.take_take]
  simp

theorem atqaPresent_iff {x : ComRun} {t : State} (h : t.rxlen = x.data.length) :
    atqaPresent (x.status t.cfg) t = true ↔ x.present t.cfg := by
  simp [atqaPresent, isOk, ComRun.present, h]

theorem getuidStatus_ok_iff {y : ComRun} {t : State} {b : Vector Byte 64} (hl : y.data.length ≤ 64)
    (h : t.rxlen = y.data.length) (hb : t.rxbuf = storeBytes y.data b) :
    getuidStatus (y.status t.cfg) (copyUid t) = .ok ↔ y.readsUid t.cfg := by
  rw [copyUid_received h hb hl]
  unfold getuidStatus ComRun.readsUid
  by_cases hs : y.status t.cfg = .ok
  · simp only [hs, ne_eq, not_true, if_false, h, true_and, ite_not]
    split
    · rename_i h5
      obtain ⟨a, b, c, d, e, hd⟩ : ∃ a b c d e, y.data = [a, b, c, d, e] := by
        match hd : y.data, h5 with
        | [a, b, c, d, e], _ => exact ⟨a, b, c, d, e, rfl⟩
      rw [hd]
      have hv : uidValid (storeBytes [a, b, c, d, e] t.uid) = decide (e = a ^^^ b ^^^ c ^^^ d) := by
        simp [uidValid, bccOf, bcc, Bool.beq_eq_decide_eq]
      show (if uidValid (storeBytes [a, b, c, d, e] t.uid) = true then _ else _) = _ ↔ _
      rw [hv]
      constructor
      · intro hh
        refine ⟨a, b, c, d, ?_⟩
        simp at hh
        simp [hh]
      · rintro ⟨a', b', c', d', he⟩
        simp at he
        obtain ⟨rfl, rfl, rfl, rfl, rfl⟩ := he
        simp
    · rename_i h5
      constructor
      · simp
      · rintro ⟨a, b, c, d, he⟩
        rw [he] at h5
        simp at h5
  · simp [hs]

/-- WAITUID's ISPRES body finds no card (R184): again. -/
theorem waitPresent_absent {x : ComRun} (t : State) {cfg : Config} (hc : t.cfg = cfg) (h : t.rxlen = x.data.length)
    (hn : ¬ x.present cfg) :
    waitPresentReturned (x.status cfg) t = startIspres .waitPresent (setPState .idle t) := by
  subst hc
  have hf : ¬ atqaPresent (x.status t.cfg) t = true := fun e => hn ((atqaPresent_iff h).1 e)
  rw [waitPresentReturned, if_neg hf, ispresState, if_neg hf]

/-- WAITUID's ISPRES body finds a card (R184): on with the GETUID body. -/
theorem waitPresent_found {x : ComRun} (t : State) {cfg : Config} (hc : t.cfg = cfg) (h : t.rxlen = x.data.length)
    (hn : x.present cfg) :
    waitPresentReturned (x.status cfg) t = startGetuid .waitUid (setPState .requested t) := by
  subst hc
  have hf := (atqaPresent_iff h).2 hn
  rw [waitPresentReturned, if_pos hf, ispresState, if_pos hf]

/-- WAITUID's GETUID body reads no valid UID (R184): again. -/
theorem waitUid_unread {y : ComRun} (t : State) {cfg : Config} (hc : t.cfg = cfg) {b : Vector Byte 64}
    (hl : y.data.length ≤ 64) (h : t.rxlen = y.data.length) (hb : t.rxbuf = storeBytes y.data b)
    (hn : ¬ y.readsUid cfg) :
    waitUidReturned (y.status cfg) t =
      startIspres .waitPresent (setPState .idle { t with uid := storeBytes (y.data.take 5) t.uid }) := by
  subst hc
  have hf : ¬ getuidStatus (y.status t.cfg) (copyUid t) = .ok := fun e => hn ((getuidStatus_ok_iff hl h hb).1 e)
  rw [waitUidReturned, if_neg hf, getuidState, if_neg hf, copyUid_received h hb hl]

/-- WAITUID's GETUID body reads a valid UID (R184): the command finishes. -/
theorem waitUid_read {y : ComRun} (t : State) {cfg : Config} (hc : t.cfg = cfg) {b : Vector Byte 64}
    (hl : y.data.length ≤ 64) (h : t.rxlen = y.data.length) (hb : t.rxbuf = storeBytes y.data b)
    (hn : y.readsUid cfg) :
    waitUidReturned (y.status cfg) t =
      finish .ok true (setPState .uidAcquired { t with uid := storeBytes (y.data.take 5) t.uid }) := by
  subst hc
  have hf := (getuidStatus_ok_iff hl h hb).2 hn
  rw [waitUidReturned, if_pos hf, getuidState, if_pos hf, copyUid_received h hb hl]

end Sys2Proof.Machine
end

