-- ==== Sys2Proof/Laws/Encoding.lean ====
section
/-! SUPPORT. The fields of a packed command word (R90). -/

namespace Sys2Proof

theorem packWord_op (op a b c : Byte) : Word.op (packWord op a b c) = op := by
  apply BitVec.eq_of_getLsbD_eq; intro i hi
  simp only [Word.op, packWord, BitVec.getLsbD_extractLsb', BitVec.getLsbD_append, Nat.zero_add]
  simp [hi]

theorem packWord_fieldA (op a b c : Byte) : Word.fieldA (packWord op a b c) = a := by
  apply BitVec.eq_of_getLsbD_eq; intro i hi
  simp only [Word.fieldA, packWord, BitVec.getLsbD_extractLsb', BitVec.getLsbD_append]
  simp [hi]

theorem packWord_fieldB (op a b c : Byte) : Word.fieldB (packWord op a b c) = b := by
  apply BitVec.eq_of_getLsbD_eq; intro i hi
  simp only [Word.fieldB, packWord, BitVec.getLsbD_extractLsb', BitVec.getLsbD_append]
  rw [if_neg (by omega), if_neg (by omega), if_pos (by omega), show 16 + i - 8 - 8 = i by omega]
  simp [hi]

theorem packWord_fieldC (op a b c : Byte) : Word.fieldC (packWord op a b c) = c := by
  apply BitVec.eq_of_getLsbD_eq; intro i hi
  simp only [Word.fieldC, packWord, BitVec.getLsbD_extractLsb', BitVec.getLsbD_append]
  rw [if_neg (by omega), if_neg (by omega), if_neg (by omega), show 24 + i - 8 - 8 - 8 = i by omega]
  simp [hi]

/-- Decoding a packed word is decoding its fields. -/
theorem decode_packWord (op a b c : Byte) : decode (packWord op a b c) = decodeFields op a b c := by
  simp only [decode, packWord_op, packWord_fieldA, packWord_fieldB, packWord_fieldC]

/-- The bytes of a packed word, OP first (R74). -/
theorem wordBytes_packWord (op a b c : Byte) : wordBytes (packWord op a b c) = [op, a, b, c] := by
  simp only [wordBytes, packWord_op, packWord_fieldA, packWord_fieldB, packWord_fieldC]

/-- What bytes decode to is what their first four decode to. -/
theorem decodeBytes_cons (op a b c : Byte) (rest : List Byte) :
    decodeBytes (op :: a :: b :: c :: rest) =
      match decodeFields op a b c with
      | .ok i => .ok (i, rest)
      | .error e => .error e := rfl

/-- A command decoded from fields has the OP field as its opcode (R93). -/
theorem opcode_of_decodeFields {op a b c : Byte} {i : Instr} (h : decodeFields op a b c = .ok i) : i.opcode = op := by
  have hop : op = BitVec.ofNat 8 op.toNat := by simp
  unfold decodeFields at h
  split at h <;> first
    | (rename_i e; rw [hop, e]; cases h; rfl)
    | cases h

end Sys2Proof
end

