-- ==== Sys2Proof/Laws/HostPort.lean ====
section
/-! SUPPORT. The host address map: which kind of location an address in each range is (R62, R63), and that two addresses
share a location only where both are reserved. -/

namespace Sys2Proof.Machine

/-- A target a host write stores a byte to, OP apart (R62). -/
def HostLoc.stores : HostLoc → Bool
  | .argA | .argB | .argC | .txbuf _ | .uid _ | .cmpuid _ | .key _ => true
  | .op | .status | .code | .pstate | .rxlen | .exc | .rxbuf _ | .crcres _ | .reserved => false

/-- A location whose host writes are ignored (R62, R64). -/
def HostLoc.ignores : HostLoc → Bool
  | .status | .code | .pstate | .rxlen | .rxbuf _ | .crcres _ | .reserved => true
  | .op | .argA | .argB | .argC | .exc | .txbuf _ | .uid _ | .cmpuid _ | .key _ => false

/-- The host address of a location (R63), the reserved ones apart. -/
def HostLoc.address : HostLoc → Option Nat
  | .op => some 0x00
  | .argA => some 0x01
  | .argB => some 0x02
  | .argC => some 0x03
  | .status => some 0x04
  | .code => some 0x05
  | .pstate => some 0x06
  | .rxlen => some 0x07
  | .exc => some 0x08
  | .txbuf i => some (0x40 + i.val)
  | .rxbuf i => some (0x80 + i.val)
  | .uid i => some (0xC0 + i.val)
  | .cmpuid i => some (0xC8 + i.val)
  | .key i => some (0xD0 + i.val)
  | .crcres i => some (0xD8 + i.val)
  | .reserved => none

theorem locate_stores : ∀ a : Byte, isInputAddr a → a.toNat ≠ 0x00 → (locate a).stores = true := by
  unfold isInputAddr; decide

theorem locate_ignores : ∀ a : Byte, isReadOnlyAddr a ∨ isReservedAddr a → (locate a).ignores = true := by
  unfold isReadOnlyAddr isReservedAddr; decide

theorem locate_reserved : ∀ a : Byte, isReservedAddr a → locate a = .reserved := by
  unfold isReservedAddr; decide

theorem locate_op {a : Byte} (h : a.toNat = 0x00) : locate a = .op := by simp [locate, h]

theorem locate_exc {a : Byte} (h : a.toNat = 0x08) : locate a = .exc := by simp [locate, h]

/-- Every address is an input, read-only, EXC or reserved. -/
theorem addr_cases (a : Byte) : isInputAddr a ∨ isReadOnlyAddr a ∨ a.toNat = 0x08 ∨ isReservedAddr a := by
  unfold isInputAddr isReadOnlyAddr isReservedAddr
  omega

/-- The map puts each location at its address. -/
theorem locate_address : ∀ a : Byte, locate a = .reserved ∨ (locate a).address = some a.toNat := by decide

/-- Two addresses with one location other than the reserved one are the same address. -/
theorem locate_injective {a b : Byte} (h : locate a = locate b) (hr : locate a ≠ .reserved) : a = b := by
  have ha := (locate_address a).resolve_left hr
  have hb := (locate_address b).resolve_left (h ▸ hr)
  rw [h, hb] at ha
  exact BitVec.eq_of_toNat_eq (by simpa using ha.symm)

end Sys2Proof.Machine
end

