-- ==== Sys2Proof/Laws/PerInstr.lean ====
section
/-! SUPPORT. Statements about every command, one lemma per constructor. FieldsDecode: a command's opcode and operand
fields select that command, and its opcode is legal (R92, R93). -/

/-- The fields of `i` decode to `i`. -/
def Sys2Proof.Laws.FieldsDecode.Statement (i : Sys2Proof.Instr) : Prop :=
  Sys2Proof.decodeFields i.opcode i.operandA i.operandB i.operandC = .ok i

theorem Sys2Proof.Laws.FieldsDecode.rreg (addr : Sys2Proof.Byte) :
    Sys2Proof.Laws.FieldsDecode.Statement (.rreg addr) := rfl
theorem Sys2Proof.Laws.FieldsDecode.rregn (addr n : Sys2Proof.Byte) :
    Sys2Proof.Laws.FieldsDecode.Statement (.rregn addr n) := rfl
theorem Sys2Proof.Laws.FieldsDecode.wreg (addr v : Sys2Proof.Byte) :
    Sys2Proof.Laws.FieldsDecode.Statement (.wreg addr v) := rfl
theorem Sys2Proof.Laws.FieldsDecode.wregn (addr n : Sys2Proof.Byte) :
    Sys2Proof.Laws.FieldsDecode.Statement (.wregn addr n) := rfl
theorem Sys2Proof.Laws.FieldsDecode.setbm (addr mask : Sys2Proof.Byte) :
    Sys2Proof.Laws.FieldsDecode.Statement (.setbm addr mask) := rfl
theorem Sys2Proof.Laws.FieldsDecode.clrbm (addr mask : Sys2Proof.Byte) :
    Sys2Proof.Laws.FieldsDecode.Statement (.clrbm addr mask) := rfl
theorem Sys2Proof.Laws.FieldsDecode.hrst :
    Sys2Proof.Laws.FieldsDecode.Statement .hrst := rfl
theorem Sys2Proof.Laws.FieldsDecode.srst :
    Sys2Proof.Laws.FieldsDecode.Statement .srst := rfl
theorem Sys2Proof.Laws.FieldsDecode.waitboot :
    Sys2Proof.Laws.FieldsDecode.Statement .waitboot := rfl
theorem Sys2Proof.Laws.FieldsDecode.ant (on : Sys2Proof.Byte) :
    Sys2Proof.Laws.FieldsDecode.Statement (.ant on) := rfl
theorem Sys2Proof.Laws.FieldsDecode.chkerr :
    Sys2Proof.Laws.FieldsDecode.Statement .chkerr := rfl
theorem Sys2Proof.Laws.FieldsDecode.init :
    Sys2Proof.Laws.FieldsDecode.Statement .init := rfl
theorem Sys2Proof.Laws.FieldsDecode.selftest :
    Sys2Proof.Laws.FieldsDecode.Statement .selftest := rfl
theorem Sys2Proof.Laws.FieldsDecode.flush :
    Sys2Proof.Laws.FieldsDecode.Statement .flush := rfl
theorem Sys2Proof.Laws.FieldsDecode.comm (cmd len cap : Sys2Proof.Byte) :
    Sys2Proof.Laws.FieldsDecode.Statement (.comm cmd len cap) := rfl
theorem Sys2Proof.Laws.FieldsDecode.ispres :
    Sys2Proof.Laws.FieldsDecode.Statement .ispres := rfl
theorem Sys2Proof.Laws.FieldsDecode.getuid :
    Sys2Proof.Laws.FieldsDecode.Statement .getuid := rfl
theorem Sys2Proof.Laws.FieldsDecode.waituid :
    Sys2Proof.Laws.FieldsDecode.Statement .waituid := rfl
theorem Sys2Proof.Laws.FieldsDecode.select :
    Sys2Proof.Laws.FieldsDecode.Statement .select := rfl
theorem Sys2Proof.Laws.FieldsDecode.chkbcc :
    Sys2Proof.Laws.FieldsDecode.Statement .chkbcc := rfl
theorem Sys2Proof.Laws.FieldsDecode.uideq :
    Sys2Proof.Laws.FieldsDecode.Statement .uideq := rfl
theorem Sys2Proof.Laws.FieldsDecode.auth (variant block : Sys2Proof.Byte) :
    Sys2Proof.Laws.FieldsDecode.Statement (.auth variant block) := rfl
theorem Sys2Proof.Laws.FieldsDecode.rdblk (block : Sys2Proof.Byte) :
    Sys2Proof.Laws.FieldsDecode.Statement (.rdblk block) := rfl
theorem Sys2Proof.Laws.FieldsDecode.wrblk (block : Sys2Proof.Byte) :
    Sys2Proof.Laws.FieldsDecode.Statement (.wrblk block) := rfl
theorem Sys2Proof.Laws.FieldsDecode.crc (n : Sys2Proof.Byte) :
    Sys2Proof.Laws.FieldsDecode.Statement (.crc n) := rfl
end

