-- ==== Sys2Proof/Tests/Slice0.lean ====
section
/-! SUPPORT. Small tests, expected results taken from the spec's tables, examples and vectors (named in each comment):
operand limits, words of every command, one step per command, the host port. Then, for each statement of
Certificates/Slice0/Obligations.lean that has hypotheses, a witness that meets them. -/

namespace Sys2Proof.Tests

open Sys2Proof Sys2Proof.Machine

/-! Helpers. -/

/-- The parameters of 95_test_vectors.md: the defaults, each bounded poll 4, REF_V1 = 64 × EE, REF_V2 = 00 01 .. 3F. -/
def testConfig : Config :=
  { defaultConfig with
    refV1 := Vector.replicate 64 0xEE
    refV2 := Vector.ofFn fun i => BitVec.ofNat 8 i.val
    pollMax := 4
    crcPollMax := 4
    selftestPollMax := 4 }

/-- The reset state of 95_test_vectors.md, every buffer byte 00 but UID = 12 34 56 78 08, CMPUID = 12 34 56 78 and
KEY = FF × 6. -/
def base : State :=
  { State.reset with
    cfg := testConfig
    txbuf := Vector.replicate 64 0x00
    rxbuf := Vector.replicate 64 0x00
    uid := #v[0x12, 0x34, 0x56, 0x78, 0x08]
    cmpuid := #v[0x12, 0x34, 0x56, 0x78]
    key := Vector.replicate 6 0xFF
    crcres := #v[0x00, 0x00] }

/-- `base` with a script of answers. -/
def answering (xs : List Byte) : State := { base with answers := xs }

/-- `base` in the middle of a command, with a script of answers. -/
def midway (p : Pos) (xs : List Byte) : State := { base with pos := p, answers := xs }

/-- A field of the next state, if there is one. -/
def read {α : Type} (f : State → α) : Result → Option α
  | .next t => some (f t)
  | _ => none

/-- One more step. -/
def andStep : Result → Result
  | .next t => step t
  | r => r

/-- What the host sees of a command: STATUS, CODE, PSTATE, RXLEN. -/
def shown (s : State) : Byte × Byte × Byte × Byte :=
  (hostRead 0x04 s, hostRead 0x05 s, hostRead 0x06 s, hostRead 0x07 s)

/-! Operand limits (R92, R251): each check with a legal value at its boundary and an ill-formed term it refuses. -/

theorem smoke_chipAddr : ∀ f ∈ [Instr.rreg, (Instr.rregn · 1), (Instr.wreg · 1), (Instr.wregn · 1), (Instr.setbm · 1),
    (Instr.clrbm · 1)], (f 0x3F).wellFormed testConfig = true ∧ (f 0x40).wellFormed testConfig = false := by decide

theorem smoke_length : ∀ f ∈ [Instr.rregn 1, Instr.wregn 1, Instr.crc, (Instr.comm 1 · 1), (Instr.comm 1 1 ·)],
    (f 64).wellFormed testConfig = true ∧ (f 65).wellFormed testConfig = false := by decide

theorem smoke_chipCommand : (Instr.comm 0x0F 1 1).wellFormed testConfig = true ∧
    (Instr.comm 0x10 1 1).wellFormed testConfig = false := by decide

theorem smoke_onOff : (Instr.ant 1).wellFormed testConfig = true ∧ (Instr.ant 2).wellFormed testConfig = false := by
  decide

theorem smoke_authVariant : (Instr.auth 0x60 4).wellFormed testConfig = true ∧
    (Instr.auth 0x61 4).wellFormed testConfig = true ∧ (Instr.auth 0x5F 4).wellFormed testConfig = false ∧
    (Instr.auth 0x62 4).wellFormed testConfig = false := by decide

/-! Words of every command, written out from R90 (C, B, A, OP from the most significant byte) and R92. -/

theorem test_decode_registerBus :
    decode 0x00003701#32 = .ok (.rreg 0x37) ∧ decode 0x00030902#32 = .ok (.rregn 0x09 3) ∧
    decode 0x000F0103#32 = .ok (.wreg 0x01 0x0F) ∧ decode 0x00020904#32 = .ok (.wregn 0x09 2) ∧
    decode 0x00031405#32 = .ok (.setbm 0x14 0x03) ∧ decode 0x00031406#32 = .ok (.clrbm 0x14 0x03) := by decide

theorem test_decode_lifecycle :
    decode 0x00000010#32 = .ok .hrst ∧ decode 0x00000011#32 = .ok .srst ∧ decode 0x00000012#32 = .ok .waitboot ∧
    decode 0x00010013#32 = .ok (.ant 1) ∧ decode 0x00000014#32 = .ok .chkerr ∧ decode 0x00000015#32 = .ok .init ∧
    decode 0x00000016#32 = .ok .selftest ∧ decode 0x00000017#32 = .ok .flush := by decide

theorem test_decode_transceiver : decode 0x40010C20#32 = .ok (.comm 0x0C 1 64) := by decide

theorem test_decode_discovery :
    decode 0x00000030#32 = .ok .ispres ∧ decode 0x00000031#32 = .ok .getuid ∧ decode 0x00000032#32 = .ok .waituid ∧
    decode 0x00000033#32 = .ok .select ∧ decode 0x00000034#32 = .ok .chkbcc ∧ decode 0x00000035#32 = .ok .uideq := by
  decide

theorem test_decode_blocks :
    decode 0x00046040#32 = .ok (.auth 0x60 4) ∧ decode 0x00040041#32 = .ok (.rdblk 4) ∧
    decode 0x00040042#32 = .ok (.wrblk 4) ∧ decode 0x00020050#32 = .ok (.crc 2) := by decide

/-- The first and last value of each illegal range of R94. -/
theorem test_decode_illegal : ∀ v ∈ [(0x00 : Byte), 0x07, 0x0F, 0x18, 0x1F, 0x21, 0x2F, 0x36, 0x3F, 0x43, 0x4F, 0x51,
    0xFF], decodeFields v 1 2 3 = .error (.illegalOpcode v) := by decide

/-- R91: an unused field is ignored. -/
theorem test_decode_unused : decode 0xAABBCC17#32 = .ok .flush ∧ decode 0xAABB3701#32 = .ok (.rreg 0x37) := by decide

/-- R92 and 90_conflicts.md: a word per row of the opcode table, its operands zero, placed before the next step of the
reset state, runs as the first instruction after reset. -/
theorem test_fetchWord_runs : ∀ w ∈ [0x01, 0x02, 0x03, 0x04, 0x05, 0x06, 0x10, 0x11, 0x12, 0x13, 0x14, 0x15, 0x16,
    0x17, 0x20, 0x30, 0x31, 0x32, 0x33, 0x34, 0x35, 0x40, 0x41, 0x42, 0x50],
    (decodeTableWord 32 w).isSome = true ∧ (read State.rstN (step (State.reset.withFetchWord 32 w))) = some true := by
  decide

/-! The register bus (95_test_vectors.md V-R). -/

/-- R110's example: RREG 0x37 answered 0x92. -/
theorem test_rreg : read (fun t => (t.history, t.rxbuf[0], shown t)) (andStep (exec (.rreg 0x37) (answering [0x92]))) =
    some ([.r 0x37 0x92], 0x92, 0x02, 0, 0, 1) := by decide

/-- R111's example: the last of three reads of 0x09. -/
theorem test_rregn : read (fun t => (t.rxbuf[0], t.rxbuf[1], t.rxbuf[2], shown t))
    (step (midway (.input 0x09 (.bulk 0x09 0 [0x11, 0x22] .rregn)) [0x33])) =
    some (0x11, 0x22, 0x33, 0x02, 0, 0, 3) := by decide

/-- R111, B = 0: no transaction. -/
theorem test_rregn_zero : read (fun t => (t.history, shown t)) (exec (.rregn 0x09 0) { base with rxlen := 7 }) =
    some ([], 0x02, 0, 0, 0) := by decide

/-- R112's example. -/
theorem test_wreg : read (fun t => (t.history, shown t)) (andStep (exec (.wreg 0x01 0x0F) base)) =
    some ([.w 0x01 0x0F], 0x02, 0, 0, 0) := by decide

/-- R113's example: TXBUF[0] first. -/
theorem test_wregn : read (fun t => (t.history, t.busy))
    (andStep (exec (.wregn 0x09 2) { base with txbuf := base.txbuf.set 0 0xAA |>.set 1 0x55 })) =
    some ([.w 0x09 0xAA], true) := by decide

/-- R114's example: the write after the answer 0x80. -/
theorem test_setbm : read (·.pos) (andStep (exec (.setbm 0x14 0x03) (answering [0x80]))) =
    some (.output (.write 0x14 0x83) [] .done) := by decide

/-- R115's example: the write after the answer 0x83. -/
theorem test_clrbm : read (·.pos) (andStep (exec (.clrbm 0x14 0x03) (answering [0x83]))) =
    some (.output (.write 0x14 0x80) [] .done) := by decide

/-! The lifecycle (V-I, V-E). -/

/-- R132's example: the pulse starts with P(0), and PSTATE is Idle at once. -/
theorem test_hrst : read (fun t => (t.history, t.rstN, t.busy, t.pstate))
    (andStep (exec .hrst { base with pstate := .selected })) = some ([.p false], false, true, .idle) := by decide

/-- R132's example: boot answer 0x00 finishes Ok. -/
theorem test_hrst_boot : read shown (step (midway (.input 0x01 (.boot 0 .plain)) [0x00])) = some (0x02, 0, 0, 0) := by
  decide

/-- R133's example: W(01,0F) first. -/
theorem test_srst : read (fun t => (t.history, t.busy)) (andStep (exec .srst base)) = some ([.w 0x01 0x0F], true) := by
  decide

/-- R131's example: the answer 0x10 does not end the wait. -/
theorem test_waitboot : read (fun t => (t.history, t.busy)) (andStep (exec .waitboot (answering [0x10]))) =
    some ([.r 0x01 0x10], true) := by decide

/-- R130 with BOOT_POLL_MAX = 1: TimeOut (8). -/
theorem test_waitboot_bound : read shown
    (andStep (exec .waitboot { answering [0x10] with cfg := { testConfig with bootPollMax := some 1 } })) =
    some (0x00, 8, 0, 0) := by decide

/-- R136's example: ANT 1 answered 0x80 writes 0x83. -/
theorem test_ant_on : read (·.pos) (andStep (exec (.ant 1) (answering [0x80]))) =
    some (.output (.write 0x14 0x83) [] .done) := by decide

/-- R136: ANT 0's write, after which PSTATE is Idle. -/
theorem test_ant_off : read (fun t => (t.history, shown t))
    (step { midway (.output (.write 0x14 0x80) [] .antennaOff) [] with pstate := .selected }) =
    some ([.w 0x14 0x80], 0x02, 0, 0, 0) := by decide

/-- R135's examples: 0x08 is CollisionError (4), 0x1F BufferOverflow (5), 0x0A ParityError (2). -/
theorem test_chkerr : read shown (andStep (exec .chkerr (answering [0x08]))) = some (0x00, 4, 0, 0) ∧
    read shown (andStep (exec .chkerr (answering [0x1F]))) = some (0x00, 5, 0, 0) ∧
    read shown (andStep (exec .chkerr (answering [0x0A]))) = some (0x00, 2, 0, 0) := by decide

/-- R134, 93 U6: a value with only unmapped bits gives Ok. -/
theorem test_chkerr_unmapped : read shown (andStep (exec .chkerr (answering [0xA0]))) = some (0x02, 0, 0, 0) := by
  decide

/-- R137's example: the antenna write 83 after the answer 80, and the writes of INIT_SEQ behind it. -/
theorem test_init : read (·.pos) (step (midway (.input 0x14 (.setBits 0x14 0x03 [.write 0x2A 0x80] .done)) [0x80])) =
    some (.output (.write 0x14 0x83) [.write 0x2A 0x80] .done) := by decide

/-- R137: boot answer 0x00 leads to the read of REG_TXCONTROL and then the writes of INIT_SEQ. -/
theorem test_init_boot : read (·.pos) (step (midway (.input 0x01 (.boot 0 .init)) [0x00])) =
    some (.input 0x14 (.setBits 0x14 0x03 [.write 0x2A 0x80, .write 0x2B 0xA9, .write 0x2C 0x03, .write 0x2D 0xE8,
      .write 0x15 0x40, .write 0x11 0x3D] .done)) := by decide

/-- R138, V-I11: a capture equal to REF_V2 = 00 01 .. 3F is Ok with RESULT = 1; V-I3: byte 17 changed is
GeneralStatusError (10). -/
theorem test_selftest :
    read shown (step (midway (.output (.write 0x36 0x00) [] (.judge ((List.range 64).map (BitVec.ofNat 8)))) [])) =
      some (0x02, 0, 0, 64) ∧
    read shown (step (midway (.output (.write 0x36 0x00) []
      (.judge (((List.range 64).map (BitVec.ofNat 8)).set 17 0xFF))) [])) = some (0x00, 10, 0, 64) := by decide

/-- R138: the fourth fill poll below 64 ends with idle, self-test off and TimeOut. -/
theorem test_selftest_fill : read (·.pos) (step (midway (.input 0x0A (.fill 3)) [0x3F])) =
    some (.output (.write 0x01 0x00) [.write 0x36 0x00] .fillTimeOut) := by decide

/-- R139's example. -/
theorem test_flush : read (fun t => (t.history, shown t)) (andStep (exec .flush { base with rxlen := 5 })) =
    some ([.w 0x0A 0x80], 0x02, 0, 0, 5) := by decide

/-! The transceiver (V-T). -/

/-- R160: RXLEN <- 0 at once, and the first transaction is the idle write. -/
theorem test_comm : read (fun t => (t.history, t.rxlen, t.busy)) (andStep (exec (.comm 0x0C 1 64) { base with rxlen := 9 })) =
    some ([.w 0x01 0x00], 0, true) := by decide

/-- V-T7: on BufferOverflow (5), a level of 0x7F and a capacity of 3, the last of three reads. -/
theorem test_comm_overflow : read (fun t => (t.rxbuf[2], shown t))
    (step (midway (.input 0x09 (.bulk 0x09 0 [0xA0, 0xA1] (.communicate .bufferOverflow .comm))) [0xA2])) =
    some (0xA2, 0x00, 5, 0, 3) := by decide

/-- R161: a transceive's poll ends on receive-complete (0x20), an authenticate's does not (V-T10). -/
theorem test_completion_bits :
    read (·.pos) (step (midway (.input 0x04 (.comIrq 0 0xC 64 .comm)) [0x20])) =
      some (.input 0x06 (.error (.communicate 64 .comm))) ∧
    read (·.pos) (step (midway (.input 0x04 (.comIrq 0 0xE 64 .auth)) [0x20])) =
      some (.input 0x04 (.comIrq 1 0xE 64 .auth)) := by decide

/-! Discovery (V-D). -/

/-- V-D1: the fourth poll without a bit ends ISPRES with TimeOut (8), PSTATE Idle. -/
theorem test_ispres_absent : read shown
    (step { midway (.input 0x04 (.comIrq 3 0xC 64 .ispres)) [0x00] with pstate := .requested }) =
    some (0x00, 8, 0, 0) := by decide

/-- V-D2: the second ATQA byte ends ISPRES with Ok, PSTATE Requested (1). -/
theorem test_ispres : read shown (step (midway (.input 0x09 (.bulk 0x09 0 [0x04] (.communicate .ok .ispres))) [0x00])) =
    some (0x02, 0, 1, 2) := by decide

/-- V-D3: the response 12 34 56 78 08 ends GETUID with Ok, PSTATE UIDAcquired (3). -/
theorem test_getuid : read (fun t => (t.uid[4], shown t))
    (step { midway (.input 0x09 (.bulk 0x09 0 [0x12, 0x34, 0x56, 0x78] (.communicate .ok .getuid))) [0x08] with
      uid := Vector.replicate 5 0x00 }) = some (0x08, 0x02, 0, 3, 5) := by decide

/-- V-D4b: three bytes give BCCError (9), PSTATE Idle, and UID[3..4] keep their values. -/
theorem test_getuid_short : read (fun t => (t.uid[2], t.uid[3], t.uid[4], shown t))
    (step (midway (.input 0x09 (.bulk 0x09 0 [0xAA, 0xBB] (.communicate .ok .getuid))) [0xCC])) =
    some (0xCC, 0x78, 0x08, 0x00, 9, 0, 3) := by decide

/-- R184: a failed attempt writes PSTATE Idle and starts again with the 7-bit framing, CODE and BUSY as they were. -/
theorem test_waituid_retry : read (fun t => (t.pos, t.pstate, t.busy))
    (step (midway (.input 0x04 (.comIrq 3 0xC 64 .waitPresent)) [0x00])) =
    some (.output (.write 0x0D 0x07) [] (.exchange 0xC [0x26] 64 .waitPresent), .idle, true) := by decide

/-- R184's example: the UID 12 34 56 78 08 ends WAITUID with Ok, PSTATE UIDAcquired. -/
theorem test_waituid : read shown
    (step (midway (.input 0x09 (.bulk 0x09 0 [0x12, 0x34, 0x56, 0x78] (.communicate .ok .waitUid))) [0x08])) =
    some (0x02, 0, 3, 5) := by decide

/-- R186's example: the frame's CRC low byte B6 is read last, then the framing write and the exchange of 9 bytes. -/
theorem test_select_frame : read (·.pos)
    (step (midway (.input 0x22 (.crcLow 0xCF (.send [0x93, 0x70, 0x12, 0x34, 0x56, 0x78, 0x08] .select))) [0x26])) =
    some (.output (.write 0x0D 0x00) []
      (.exchange 0xC [0x93, 0x70, 0x12, 0x34, 0x56, 0x78, 0x08, 0x26, 0xCF] 64 .select)) := by decide

/-- R186's example: response 08 B6 DD, the chip's CRC high DD and low B6: Ok, PSTATE Selected (4). -/
theorem test_select : read shown
    (step { midway (.input 0x22 (.crcLow 0xDD (.verify 1 .select))) [0xB6] with
      rxbuf := base.rxbuf.set 0 0x08 |>.set 1 0xB6 |>.set 2 0xDD, rxlen := 3 }) = some (0x02, 0, 4, 3) := by decide

/-- R189's examples. -/
theorem test_chkbcc : read shown (exec .chkbcc base) = some (0x02, 0, 0, 0) ∧
    read shown (exec .chkbcc { base with uid := #v[0x12, 0x34, 0x56, 0x78, 0x09] }) = some (0x00, 9, 0, 0) := by decide

/-- R190's examples. -/
theorem test_uideq : read shown (exec .uideq base) = some (0x02, 0, 0, 0) ∧
    read shown (exec .uideq { base with cmpuid := Vector.replicate 4 0x00 }) = some (0x00, 0, 0, 0) := by decide

/-! Authentication and blocks (V-B). -/

/-- R210's example: the AuthStatus answer 0x08 gives Ok and PSTATE Authenticated (5); V-B1b: 0x00 gives
GeneralStatusError (10). -/
theorem test_auth : read shown (step (midway (.input 0x08 .authStatus) [0x08])) = some (0x02, 0, 5, 0) ∧
    read shown (step (midway (.input 0x08 .authStatus) [0x00])) = some (0x00, 10, 0, 0) := by decide

/-- R210's example: the frame. -/
theorem test_auth_frame : authFrame 0x60 4 base =
    [0x60, 0x04, 0xFF, 0xFF, 0xFF, 0xFF, 0xFF, 0xFF, 0x12, 0x34, 0x56, 0x78] := by decide

/-- R212's example: 30 04 is sent with the CRC bytes 26 EE. -/
theorem test_rdblk_frame : read (·.pos) (step (midway (.input 0x22 (.crcLow 0xEE (.send [0x30, 0x04] .rdblk))) [0x26])) =
    some (.output (.write 0x0D 0x00) [] (.exchange 0xC [0x30, 0x04, 0x26, 0xEE] 64 .rdblk)) := by decide

/-- V-B2b: a NAK of one byte gives GeneralStatusError (10) and PSTATE Idle. -/
theorem test_rdblk_nak : read shown
    (step { midway (.input 0x09 (.bulk 0x09 0 [] (.communicate .ok .rdblk))) [0x04] with pstate := .selected }) =
    some (0x00, 10, 0, 1) := by decide

/-- V-B3: the second ACK 0x0A ends WRBLK with Ok, PSTATE unchanged. -/
theorem test_wrblk : read shown
    (step { midway (.input 0x09 (.bulk 0x09 0 [] (.communicate .ok .wrblkData))) [0x0A] with
      pstate := .authenticated }) = some (0x02, 0, 5, 1) := by decide

/-- R213: without an ACK in phase 1, WriteError (7) and PSTATE Idle. -/
theorem test_wrblk_refused : read shown
    (step { midway (.input 0x09 (.bulk 0x09 0 [] (.communicate .ok .wrblkCommand))) [0x05] with
      pstate := .authenticated }) = some (0x00, 7, 0, 1) := by decide

/-! CRC (V-C). -/

/-- R233's example: high 1E, low A0. -/
theorem test_crc : read (fun t => (t.crcres[0], t.crcres[1], shown t)) (step (midway (.input 0x22 (.crcLow 0x1E .crc)) [0xA0])) =
    some (0xA0, 0x1E, 0x02, 0, 0, 0) := by decide

/-- R230: the fourth poll without M_CRCIRQ gives TimeOut (8), CRCRES unchanged. -/
theorem test_crc_timeout : read (fun t => (t.crcres[0], shown t))
    (step { midway (.input 0x05 (.divIrq 3 .crc)) [0x00] with crcres := #v[0x11, 0x22] }) = some (0x11, 0x00, 8, 0, 0) := by
  decide

/-- R232's check values, the preset for the empty string, and R212's CRC_A(30 04) = 0xEE26. -/
theorem test_crcA : crcA [0x00, 0x00] = 0x1EA0 ∧ crcA [0x12, 0x34] = 0xCF26 ∧ crcA [] = 0x6363 ∧
    crcA [0x30, 0x04] = 0xEE26 := by decide

/-! Exceptions and the host port (R250–R255, R61–R64). -/

theorem test_exceptions :
    read (hostRead 0x08) (hostWrite 0x00 0x51 base) = some 1 ∧
    read (hostRead 0x08) (hostWrite 0x00 0x01 { base with argA := 0x40 }) = some 2 ∧
    read (hostRead 0x08) (hostWrite 0x40 0x01 (midway (.input 0x01 .rreg) [])) = some 3 ∧
    read (hostRead 0x08) (hostWrite 0x00 0x51 { base with exc := some .badOperand }) = some 2 ∧
    read (hostRead 0x08) (hostWrite 0x08 0xFF { base with exc := some .badOperand }) = some 0 := by decide

theorem test_host_map : locate 0x40 = .txbuf 0 ∧ locate 0x7F = .txbuf 63 ∧ locate 0x80 = .rxbuf 0 ∧
    locate 0xBF = .rxbuf 63 ∧ locate 0xC4 = .uid 4 ∧ locate 0xC5 = .reserved ∧ locate 0xCB = .cmpuid 3 ∧
    locate 0xD5 = .key 5 ∧ locate 0xD9 = .crcres 1 ∧ locate 0xDA = .reserved ∧ locate 0x09 = .reserved ∧
    locate 0x3F = .reserved := by decide

/-! Witnesses, one for each statement with hypotheses, in the statements' order; the boundary values of each clause. -/

theorem base_ready : base.ready := ⟨by decide, by decide, rfl⟩

theorem answering_ready (xs : List Byte) : (answering xs).ready := base_ready

/-- A state with a command running. -/
def running : State := midway (.output (.write 0x01 0x0F) [.write 0x02 0x00] .done) []

theorem running_busy : running.busy = true ∧ configOk running.cfg = true := by decide

/-- The boundary values of R94's ranges, and their legal neighbours. -/
theorem witness_OpcodeAloneSelectsCommand :
    (∀ v ∈ [(0x00 : Byte), 0x07, 0x0F, 0x18, 0x1F, 0x21, 0x2F, 0x36, 0x3F, 0x43, 0x4F, 0x51, 0xFF], isIllegalOp v) ∧
    (∀ v ∈ [(0x01 : Byte), 0x06, 0x10, 0x17, 0x20, 0x30, 0x35, 0x40, 0x42, 0x50], ¬ isIllegalOp v) ∧
    (0x11223301#32).extractLsb' 0 8 = (0x00000001#32).extractLsb' 0 8 ∧ decode 0x11223301#32 = .ok (.rreg 0x33) ∧
    decode 0x00000001#32 = .ok (.rreg 0x00) := by
  unfold isIllegalOp; decide

theorem witness_StepRunsDecodedCommand : ∃ s : State, configOk s.cfg = true ∧
    s.schedule = .hostWrite 0x00 0x03 :: [.sequencer] ∧
    decodeBytes [0x03, s.argA, s.argB, s.argC] = .ok (.wreg 0x01 0x0F, []) :=
  ⟨{ base with argA := 0x01, argB := 0x0F, schedule := [.hostWrite 0x00 0x03, .sequencer] }, by decide⟩

theorem witness_FetchWordRunsCommand : configOk base.cfg = true ∧
    decodeTableWord 32 0x000F0103 = some (.wreg 0x01 0x0F) ∧ decodeTableWord 8 0xFF17 = some .flush := by decide

theorem witness_AssembledWritesIssueCommand : ∃ s : State, configOk s.cfg = true ∧ s.busy = false ∧
    s.schedule = [.hostWrite 0x01 (Instr.comm 0x0C 2 64).operandA, .hostWrite 0x02 (Instr.comm 0x0C 2 64).operandB,
      .hostWrite 0x03 (Instr.comm 0x0C 2 64).operandC, .hostWrite 0x00 (Instr.comm 0x0C 2 64).opcode] ++ [.sequencer] :=
  ⟨{ base with schedule := assemble (.comm 0x0C 2 64) ++ [.sequencer] }, by decide⟩

/-- Every command, with its operands at their limits. -/
theorem witness_LegalCommandIsAccepted : base.busy = false ∧ ∀ i ∈ [Instr.rreg 0x3F, .rregn 0x3F 64, .rregn 0 0,
    .wreg 0x3F 0xFF, .wregn 0x3F 64, .wregn 0 0, .setbm 0x3F 0xFF, .clrbm 0x3F 0xFF, .hrst, .srst, .waitboot, .ant 0,
    .ant 1, .chkerr, .init, .selftest, .flush, .comm 0x0F 64 64, .ispres, .getuid, .waituid, .select, .chkbcc, .uideq,
    .auth 0x60 0xFF, .auth 0x61 0, .rdblk 0xFF, .wrblk 0xFF, .crc 64], i.wellFormed base.cfg = true := by decide

theorem witness_BadOperandOutsideLimits : base.busy = false ∧ 0x3F < (0x40 : Byte).toNat ∧ 64 < (65 : Byte).toNat ∧
    0x0F < (0x10 : Byte).toNat ∧ 1 < (2 : Byte).toNat ∧ (0x62 : Byte) ≠ base.cfg.authKeyA ∧
    (0x62 : Byte) ≠ base.cfg.authKeyB := by decide

/-- Boundary addresses of each class; the classes share no address: `addr_classes_disjoint`. -/
theorem witness_WritesWhileBusyAreDropped : running.busy = true ∧
    (∀ a ∈ [(0x00 : Byte), 0x03, 0x40, 0x7F, 0xC0, 0xC4, 0xC8, 0xCB, 0xD0, 0xD5], isInputAddr a) ∧
    (0x08 : Byte).toNat = 0x08 ∧ (∀ a ∈ [(0x04 : Byte), 0x07, 0x80, 0xBF, 0xD8, 0xD9], isReadOnlyAddr a) ∧
    (∀ a ∈ [(0x09 : Byte), 0x3F, 0xC5, 0xC7, 0xCC, 0xCF, 0xD6, 0xD7, 0xDA, 0xFF], isReservedAddr a) := by
  unfold isInputAddr isReadOnlyAddr isReservedAddr; decide

theorem addr_classes_disjoint (a : Byte) : ¬ (isInputAddr a ∧ a.toNat = 0x08) ∧ ¬ (isInputAddr a ∧ isReadOnlyAddr a) ∧
    ¬ (isInputAddr a ∧ isReservedAddr a) ∧ ¬ (isReadOnlyAddr a ∧ a.toNat = 0x08) ∧
    ¬ (isReservedAddr a ∧ a.toNat = 0x08) := by
  unfold isInputAddr isReadOnlyAddr isReservedAddr; omega

theorem witness_ExceptionPriority : running.busy = true ∧ isInputAddr 0x00 ∧ base.busy = false ∧ isIllegalOp 0x51 ∧
    decodeBytes [0x01, 0x40, 0x00, 0x00] = .ok (.rreg 0x40, []) ∧ (Instr.rreg 0x40).wellFormed base.cfg = false := by
  unfold isInputAddr isIllegalOp; decide

theorem witness_ExceptionRecordBlocksNothing : base.busy = false ∧ (Instr.flush).wellFormed base.cfg = true ∧
    (∀ a ∈ [(0x01 : Byte), 0x03, 0x40, 0x7F, 0xC0, 0xC4, 0xC8, 0xCB, 0xD0, 0xD5], isInputAddr a ∧ a.toNat ≠ 0x00) ∧
    ({ base with exc := some .badOperand } : State).exc ≠ none := by unfold isInputAddr; decide

/-- The invariant with RXLEN at its bound. -/
theorem witness_StatusRegisterNumbers : ({ base with rxlen := 64 } : State).inv = true ∧
    hostRead 0x07 { base with rxlen := 64 } = 64 := by decide

theorem witness_HostReadsByTheMap : configOk base.cfg = true ∧
    ({ base with schedule := [.hostRead 0x04] } : State).schedule = .hostRead 0x04 :: [] ∧ isReservedAddr 0xDA := by
  unfold isReservedAddr; decide

theorem witness_HostWriteStoresOneByte : base.busy = false ∧
    (∀ a ∈ [(0x01 : Byte), 0x03, 0x40, 0x7F, 0xC0, 0xC4, 0xC8, 0xCB, 0xD0, 0xD5], isInputAddr a ∧ a.toNat ≠ 0x00) ∧
    (isReadOnlyAddr 0xBF ∨ isReservedAddr 0xBF) ∧ (isReadOnlyAddr 0xFF ∨ isReservedAddr 0xFF) := by
  unfold isInputAddr isReadOnlyAddr isReservedAddr; decide

theorem witness_ReservedAddressesDoNothing :
    ∀ a ∈ [(0x09 : Byte), 0x3F, 0xC5, 0xC7, 0xCC, 0xCF, 0xD6, 0xD7, 0xDA, 0xFF], isReservedAddr a := by
  unfold isReservedAddr; decide

theorem witness_ResetInputAbandonsCommand : configOk running.cfg = true ∧ running.busy = true ∧
    ({ running with schedule := [.reset] } : State).schedule = .reset :: [] := by decide

theorem witness_StepKeepsInvariant : running.inv = true ∧ read (·.rstN) (step running) = some true := by decide

theorem witness_CodeAndResultHeldUntilFinish : (sequencerStep running).busy = true := by decide

theorem witness_ResultIsOkAtFinish : ∃ s : State, s.busy = true ∧ (sequencerStep s).busy = false :=
  ⟨midway (.input 0x06 (.error .chkerr)) [0x08], by decide⟩

theorem witness_OneEventPerSequencerStep : base.busy = false ∧
    running.pos = .output (.write 0x01 0x0F) [.write 0x02 0x00] .done ∧
    (midway (.output (.pin true) [] (.pollBoot .plain)) []).pos = .output (.pin true) [] (.pollBoot .plain) ∧
    (midway (.input 0x01 .rreg) [0x92]).pos = .input 0x01 .rreg := by decide

/-- A run whose last turn is the step that finishes the command. -/
theorem witness_HostAccessesNeverChangeARunningCommand : ∃ s : State, configOk s.cfg = true ∧
    s.schedule = [.hostWrite 0x01 0x55, .sequencer, .hostRead 0x04, .sequencer] ∧ Turn.reset ∉ s.schedule ∧
    (∀ k, k < s.schedule.length → (sequencerSteps ((s.schedule.take k).count .sequencer) s).busy = true) ∧
    (sequencerSteps (s.schedule.count .sequencer) s).busy = false := by
  refine ⟨{ running with schedule := [.hostWrite 0x01 0x55, .sequencer, .hostRead 0x04, .sequencer] },
    by decide, rfl, by decide, ?_, by decide⟩
  intro k hk
  have : k < 4 := hk
  interval_cases k <;> decide

theorem witness_RstNOnlyByHrstAndInit : running.inv = true ∧ running.op ≠ 0x10 ∧ running.op ≠ 0x15 ∧
    read (·.rstN) (exec .hrst base) = some true := by decide

/-- The first and the last register parameter just outside their range, and SELFTEST_ZEROS at and beyond its bound. -/
theorem witness_IllFormedConfigIsRefused : 0x3F < ({ testConfig with regCommand := 0x40 }).regCommand.toNat ∧
    0x3F < ({ testConfig with regAutoTest := 0x40 }).regAutoTest.toNat ∧
    64 < ({ testConfig with selftestZeros := 64 }).selftestZeros + 1 ∧
    configOk { testConfig with selftestZeros := 64 } = false ∧
    configOk { testConfig with selftestZeros := 63 } = true := by decide

/-- RREG, WREG, SETBM, CLRBM. -/
theorem witness_registerCommands : (0x3F : Byte).toNat ≤ 0x3F ∧ base.ready ∧ 0x3F < (0x40 : Byte).toNat ∧
    base.busy = false := ⟨by decide, base_ready, by decide, by decide⟩

/-- B = 64, B = 2 and B = 0, each with the RXBUF the rule gives. -/
theorem witness_RregnReadsInOrder : (0x3F : Byte).toNat ≤ 0x3F ∧ (64 : Byte).toNat ≤ 64 ∧ 64 < (65 : Byte).toNat ∧
    (∀ xs, (answering xs).ready ∧ (answering xs).answers = xs ++ []) ∧
    ((List.replicate 64 (0x11 : Byte)).length = (64 : Byte).toNat ∧ ∀ (i : Nat) (h : i < 64),
      (Vector.replicate 64 (0x11 : Byte))[i] =
        if hx : i < (List.replicate 64 (0x11 : Byte)).length then (List.replicate 64 (0x11 : Byte))[i]
        else base.rxbuf[i]) ∧
    ([(0x11 : Byte), 0x22].length = (2 : Byte).toNat ∧ ∀ (i : Nat) (h : i < 64),
      (base.rxbuf.set 0 0x11 |>.set 1 0x22)[i] =
        if hx : i < [(0x11 : Byte), 0x22].length then [(0x11 : Byte), 0x22][i] else base.rxbuf[i]) ∧
    (([] : List Byte).length = (0 : Byte).toNat ∧ ∀ (i : Nat) (h : i < 64),
      base.rxbuf[i] = if hx : i < ([] : List Byte).length then ([] : List Byte)[i] else base.rxbuf[i]) :=
  ⟨by decide, by decide, by decide, fun xs => ⟨answering_ready xs, (List.append_nil xs).symm⟩,
    ⟨by decide, by decide⟩, ⟨by decide, by decide⟩, by decide, fun _ _ => rfl⟩

theorem witness_WregnWritesTxbufInOrder : (0x3F : Byte).toNat ≤ 0x3F ∧ (64 : Byte).toNat ≤ 64 ∧ base.ready ∧
    (0x3F < (0x40 : Byte).toNat ∨ 64 < (64 : Byte).toNat) ∧ (0x3F < (0x3F : Byte).toNat ∨ 64 < (65 : Byte).toNat) ∧
    base.busy = false := ⟨by decide, by decide, base_ready, by decide, by decide, by decide⟩

theorem witness_FifoLoopbackRoundTrip : (answering base.txbuf.toList).ready ∧
    (answering base.txbuf.toList).answers = base.txbuf.toList ++ [] := ⟨answering_ready _, by decide⟩

/-! Environments: one run of each procedure for each way it ends. -/

def bootedRun : BootRun := ⟨[0x10], .booted 0x00⟩

def bootExhausted : BootRun := ⟨[0x10, 0x30], .exhausted⟩

/-- `base` with BOOT_POLL_MAX = 2 and a script. -/
def bounded (xs : List Byte) : State := { answering xs with cfg := { testConfig with bootPollMax := some 2 } }

theorem bounded_ready (xs : List Byte) : (bounded xs).ready :=
  (⟨by decide, by decide, rfl⟩ : (bounded []).ready)

theorem bootedRun_fits : bootedRun.fits testConfig ∧ bootedRun.fits (bounded []).cfg ∧ bootedRun.status = .ok :=
  ⟨⟨by decide, fun _ h => (by cases h), by decide⟩, ⟨by decide, fun _ h => .inr (by cases h; decide), by decide⟩, rfl⟩

theorem bootExhausted_fits : bootExhausted.fits (bounded []).cfg ∧ bootExhausted.status ≠ .ok :=
  ⟨⟨by decide, by decide, rfl⟩, by decide⟩

/-- WAITBOOT, HRST, SRST: the wait ends with a boot, and with a finite budget used up. -/
theorem witness_bootWaits :
    ((answering (bootedRun.answers ++ [])).ready ∧ bootedRun.fits (answering []).cfg ∧
      (answering (bootedRun.answers ++ [])).answers = bootedRun.answers ++ []) ∧
    ((bounded (bootExhausted.answers ++ [])).ready ∧ bootExhausted.fits (bounded []).cfg ∧
      (bounded (bootExhausted.answers ++ [])).answers = bootExhausted.answers ++ []) :=
  ⟨⟨answering_ready _, bootedRun_fits.1, rfl⟩, ⟨bounded_ready _, bootExhausted_fits.1, rfl⟩⟩

theorem witness_BootWaitNeverGivesUp : (answering [0x10, 0x30]).ready ∧ (answering []).cfg.bootPollMax = none ∧
    (∀ v ∈ [(0x10 : Byte), 0x30], v &&& (answering []).cfg.mPowerDown ≠ 0) ∧
    (answering [0x10, 0x30]).answers = [0x10, 0x30] ++ [] := ⟨answering_ready _, by decide, by decide, rfl⟩

theorem witness_AntSwitchesDrivers : base.ready ∧ 1 < (2 : Byte).toNat ∧ base.busy = false :=
  ⟨base_ready, by decide, by decide⟩

theorem witness_ChkerrDecodesByPriority : (answering [0x1F]).ready ∧
    (0x1F : Byte) = answerTo (answering [0x1F]).cfg.regError (answering [0x1F]) := ⟨answering_ready _, by decide⟩

theorem witness_InitConfiguresTheChip :
    (bootExhausted.status ≠ .ok ∧ (bounded (bootExhausted.answers ++ [])).ready ∧ bootExhausted.fits (bounded []).cfg) ∧
    (bootedRun.status = .ok ∧ (answering (bootedRun.answers ++ 0x80 :: [])).ready ∧
      bootedRun.fits (answering []).cfg ∧
      (answering (bootedRun.answers ++ 0x80 :: [])).answers = bootedRun.answers ++ 0x80 :: []) :=
  ⟨⟨bootExhausted_fits.2, bounded_ready _, bootExhausted_fits.1⟩, rfl, answering_ready _, bootedRun_fits.1, rfl⟩

/-- SELFTEST: the boot wait fails; four polls at most 0x3F; three such polls and then 0x40, and 64 bytes. -/
theorem witness_SelftestComparesTheCapture :
    (bootExhausted.status ≠ .ok ∧ (bounded (bootExhausted.answers ++ [])).ready ∧ bootExhausted.fits (bounded []).cfg) ∧
    (bootedRun.status = .ok ∧ bootedRun.fits (answering []).cfg) ∧
    ((∀ v ∈ [(0x3F : Byte), 0x00, 0x3F, 0xBF], fifoFull testConfig v = false) ∧
      [(0x3F : Byte), 0x00, 0x3F, 0xBF].length = testConfig.selftestPollMax ∧
      (answering (bootedRun.answers ++ [0x3F, 0x00, 0x3F, 0xBF] ++ [])).ready) ∧
    ([(0x3F : Byte), 0x00, 0x3F].length < testConfig.selftestPollMax ∧ fifoFull testConfig 0x40 = true ∧
      (List.replicate 64 (0xEE : Byte)).length = 64 ∧
      (answering (bootedRun.answers ++ [0x3F, 0x00, 0x3F] ++ 0x40 :: List.replicate 64 0xEE ++ [])).ready) :=
  ⟨⟨bootExhausted_fits.2, bounded_ready _, bootExhausted_fits.1⟩, ⟨rfl, bootedRun_fits.1⟩,
    ⟨by decide, by decide, answering_ready _⟩, by decide, by decide, by decide, answering_ready _⟩

/-- A transceive that receives nothing in time, one the chip timer ends, one with a collision, and one that receives
`data`. -/
def comExhausted : ComRun := ⟨0x00, [0x00, 0x00, 0x00, 0x04], .exhausted⟩

def comTimer : ComRun := ⟨0x00, [0x00], .timer 0x21⟩

def comFailed : ComRun := ⟨0x00, [], .failed 0x22 0x08⟩

def comReceived (data : List Byte) : ComRun := ⟨0x07, [0x00], .readBack 0x30 0x00 (BitVec.ofNat 8 data.length) data⟩

theorem comEnds_fit : comExhausted.fitsFrame testConfig ∧ comTimer.fitsFrame testConfig ∧
    comFailed.fitsFrame testConfig ∧ (comReceived []).fitsFrame testConfig ∧
    (comReceived [0x0A]).fitsFrame testConfig ∧ (comReceived [0x04, 0x00]).fitsFrame testConfig ∧
    (comReceived [0x08, 0xB6, 0xDD]).fitsFrame testConfig ∧
    (comReceived [0x12, 0x34, 0x56, 0x78, 0x08]).fitsFrame testConfig ∧
    (comReceived (List.replicate 18 0x00)).fitsFrame testConfig ∧
    (comReceived (List.replicate 64 0x00)).fitsFrame testConfig :=
  ⟨⟨by decide, rfl⟩, ⟨by decide, by decide, by decide⟩, ⟨by decide, by decide, by decide, by decide, by decide⟩,
    ⟨by decide, by decide, by decide, by decide, by decide⟩, ⟨by decide, by decide, by decide, by decide, by decide⟩,
    ⟨by decide, by decide, by decide, by decide, by decide⟩, ⟨by decide, by decide, by decide, by decide, by decide⟩,
    ⟨by decide, by decide, by decide, by decide, by decide⟩, ⟨by decide, by decide, by decide, by decide, by decide⟩,
    ⟨by decide, by decide, by decide, by decide, by decide⟩⟩

theorem comEnds_status : comExhausted.status testConfig = .timeOut ∧ comTimer.status testConfig = .timeOut ∧
    comFailed.status testConfig = .collisionError ∧ (comReceived []).status testConfig = .ok := by decide

/-- COMM at its limits, on each way the exchange ends; and each limit exceeded by one. -/
theorem witness_CommRunsOneExchange : (0x0F : Byte).toNat ≤ 0x0F ∧ (64 : Byte).toNat ≤ 64 ∧
    (∀ x : ComRun, (answering (x.answers testConfig 0xC ++ [])).ready ∧
      (answering (x.answers testConfig 0xC ++ [])).answers = x.answers testConfig 0xC ++ []) ∧
    (∀ x ∈ [comExhausted, comTimer, comFailed, comReceived (List.replicate 64 0x00)],
      x.fits testConfig ((0x0C : Byte).setWidth 4) (64 : Byte).toNat) ∧
    (0x0F < (0x10 : Byte).toNat ∧ 64 < (65 : Byte).toNat ∧ base.busy = false) :=
  ⟨by decide, by decide, fun x => ⟨answering_ready _, rfl⟩, by
    intro x hx
    have h := comEnds_fit
    rcases List.mem_cons.1 hx with rfl | hx
    · exact h.1
    rcases List.mem_cons.1 hx with rfl | hx
    · exact h.2.1
    rcases List.mem_cons.1 hx with rfl | hx
    · exact h.2.2.1
    · rw [List.mem_singleton.1 hx]; exact h.2.2.2.2.2.2.2.2.2, by decide⟩

/-- A transceive and an authenticate (chip command 0xE), with a read-back and with an error. -/
theorem witness_ExchangeLength : (comReceived [0x04, 0x00]).fits testConfig ((0x0C : Byte).setWidth 4) 64 ∧
    (comReceived []).fits testConfig ((0x0E : Byte).setWidth 4) 64 ∧
    comFailed.fits testConfig ((0x0C : Byte).setWidth 4) 64 ∧
    (answering ((comReceived [0x04, 0x00]).answers testConfig ((0x0C : Byte).setWidth 4) ++ [])).ready :=
  ⟨comEnds_fit.2.2.2.2.2.1, ⟨by decide, by decide, by decide, by decide, by decide⟩, comEnds_fit.2.2.1,
    answering_ready _⟩

/-- ISPRES and GETUID: a response of each kind and each failure. -/
theorem witness_discovery : (∀ x : ComRun, (answering (x.frameAnswers testConfig ++ [])).ready ∧
      (answering (x.frameAnswers testConfig ++ [])).answers = x.frameAnswers testConfig ++ []) ∧
    (comReceived [0x04, 0x00]).fitsFrame testConfig ∧ (comReceived []).fitsFrame testConfig ∧
    (comReceived [0x12, 0x34, 0x56, 0x78, 0x08]).fitsFrame testConfig ∧ comExhausted.fitsFrame testConfig :=
  ⟨fun _ => ⟨answering_ready _, rfl⟩, comEnds_fit.2.2.2.2.2.1, comEnds_fit.2.2.2.1,
    comEnds_fit.2.2.2.2.2.2.2.1, comEnds_fit.1⟩

/-- A card that is absent once and then present without a readable UID. -/
def failedAttempts : List WaitAttempt := [.absent comExhausted, .unread (comReceived [0x04, 0x00]) comFailed]

theorem failedAttempts_fit : ∀ a ∈ failedAttempts, a.fits testConfig := by
  intro a ha
  rcases List.mem_cons.1 ha with rfl | ha
  · exact ⟨comEnds_fit.1, by unfold ComRun.present; decide⟩
  · rw [List.mem_singleton.1 ha]
    exact ⟨comEnds_fit.2.2.2.2.2.1, by unfold ComRun.present; decide, comEnds_fit.2.2.1, fun h => by
      have := h.1; revert this; decide⟩

theorem witness_Waituid : (∀ a ∈ failedAttempts, a.fits testConfig) ∧
    ((comReceived [0x04, 0x00]).fitsFrame testConfig ∧ (comReceived [0x04, 0x00]).present testConfig) ∧
    ((comReceived [0x12, 0x34, 0x56, 0x78, 0x08]).fitsFrame testConfig ∧
      (comReceived [0x12, 0x34, 0x56, 0x78, 0x08]).readsUid testConfig) ∧
    failedAttempts ≠ [] ∧ ∀ xs, (answering xs).ready ∧ (answering xs).answers = xs :=
  ⟨failedAttempts_fit, ⟨comEnds_fit.2.2.2.2.2.1, by unfold ComRun.present; decide⟩,
    ⟨comEnds_fit.2.2.2.2.2.2.2.1, by decide, 0x12, 0x34, 0x56, 0x78, by decide⟩, by decide,
    fun xs => ⟨answering_ready xs, rfl⟩⟩

/-- A CRC calculation that is ready on its second poll, and one that never is. -/
def crcReady : CrcRun := ⟨[0x00], .ready 0x04 0x1E 0xA0⟩

def crcExhausted : CrcRun := ⟨[0x00, 0x00, 0x00, 0xFB], .exhausted⟩

theorem crcEnds_fit : crcReady.fits testConfig ∧ crcReady.status = .ok ∧ crcExhausted.fits testConfig ∧
    crcExhausted.status ≠ .ok :=
  ⟨⟨by decide, by decide, by decide⟩, rfl, ⟨by decide, rfl⟩, by decide⟩

/-- SELECT: each clause's answers. -/
theorem witness_SelectSelectsTheCard : (∀ xs, (answering xs).ready ∧ (answering xs).answers = xs) ∧
    (crcExhausted.fits testConfig ∧ crcExhausted.status ≠ .ok) ∧ (crcReady.fits testConfig ∧ crcReady.status = .ok) ∧
    (comFailed.fitsFrame testConfig ∧ comFailed.status testConfig ≠ .ok) ∧
    ((comReceived [0x0A]).fitsFrame testConfig ∧ (comReceived [0x0A]).data.length ≠ testConfig.sakLen) ∧
    ((comReceived [0x08, 0xB6, 0xDD]).fitsFrame testConfig ∧ (comReceived [0x08, 0xB6, 0xDD]).status testConfig = .ok ∧
      (comReceived [0x08, 0xB6, 0xDD]).data.length = testConfig.sakLen) :=
  ⟨fun xs => ⟨answering_ready xs, rfl⟩, ⟨crcEnds_fit.2.2.1, crcEnds_fit.2.2.2⟩, ⟨crcEnds_fit.1, crcEnds_fit.2.1⟩,
    ⟨comEnds_fit.2.2.1, by decide⟩, ⟨comEnds_fit.2.2.2.2.1, by decide⟩,
    comEnds_fit.2.2.2.2.2.2.1, by decide, by decide⟩

theorem witness_ChkbccChecksTheUid : base.busy = false ∧
    true = decide (base.uid[4] = base.uid[0] ^^^ base.uid[1] ^^^ base.uid[2] ^^^ base.uid[3]) := by decide

theorem witness_BccDetectsSingleBitErrors : (4 : Nat) < 5 ∧ (7 : Nat) < 8 ∧ uidValid base.uid = true := by decide

theorem witness_UideqComparesFourBytes : base.busy = false := by decide

/-- AUTH: both variants; a failed exchange; an Ok one with the register's bit set and clear; another variant. -/
theorem witness_AuthReportsTheCryptoUnit : (∀ xs, (answering xs).ready ∧ (answering xs).answers = xs) ∧
    ((0x60 : Byte) = testConfig.authKeyA ∧ (0x61 : Byte) = testConfig.authKeyB) ∧
    (comFailed.fits testConfig testConfig.cmdMfAuthent 64 ∧ comFailed.status testConfig ≠ .ok) ∧
    ((comReceived []).fits testConfig testConfig.cmdMfAuthent 64 ∧ (comReceived []).status testConfig = .ok) ∧
    ((0x62 : Byte) ≠ testConfig.authKeyA ∧ (0x62 : Byte) ≠ testConfig.authKeyB ∧ base.busy = false) :=
  ⟨fun xs => ⟨answering_ready xs, rfl⟩, by decide, ⟨⟨by decide, by decide, by decide, by decide, by decide⟩, by decide⟩,
    ⟨⟨by decide, by decide, by decide, by decide, by decide⟩, by decide⟩, by decide⟩

/-- RDBLK: a response of one byte less than READ_RESP_LEN, and one of that length. -/
theorem witness_RdblkReadsABlock :
    ((comReceived (List.replicate 17 0x00)).fitsFrame testConfig ∧
      (comReceived (List.replicate 17 0x00)).data.length ≠ testConfig.readRespLen) ∧
    ((comReceived (List.replicate 18 0x00)).fitsFrame testConfig ∧
      (comReceived (List.replicate 18 0x00)).status testConfig = .ok ∧
      (comReceived (List.replicate 18 0x00)).data.length = testConfig.readRespLen) ∧
    (crcReady.fits testConfig ∧ crcReady.status = .ok) ∧ (crcExhausted.fits testConfig ∧ crcExhausted.status ≠ .ok) :=
  ⟨⟨⟨by decide, by decide, by decide, by decide, by decide⟩, by decide⟩,
    ⟨comEnds_fit.2.2.2.2.2.2.2.2.1, by decide, by decide⟩, ⟨crcEnds_fit.1, crcEnds_fit.2.1⟩,
    crcEnds_fit.2.2.1, crcEnds_fit.2.2.2⟩

/-- WRBLK: an acknowledge 0x0A, and a NAK 0x05. -/
theorem witness_WrblkWritesABlock :
    ((comReceived [0x0A]).fitsFrame testConfig ∧ (comReceived [0x0A]).status testConfig = .ok ∧
      (comReceived [0x0A]).data = [0x0A] ∧ (0x0A : Byte) &&& 0x0F = testConfig.mfAck.setWidth 8) ∧
    ((comReceived [0x05]).fitsFrame testConfig ∧ (comReceived [0x05]).status testConfig = .ok ∧
      ¬ ∃ d, (comReceived [0x05]).data = [d] ∧ d &&& 0x0F = testConfig.mfAck.setWidth 8) ∧
    (crcReady.fits testConfig ∧ crcReady.status = .ok) ∧ (crcExhausted.fits testConfig ∧ crcExhausted.status ≠ .ok) :=
  ⟨⟨comEnds_fit.2.2.2.2.1, by decide, by decide, by decide⟩,
    ⟨⟨by decide, by decide, by decide, by decide, by decide⟩, by decide, by
      rintro ⟨d, h, hd⟩
      have : d = 0x05 := (List.cons.inj h).1.symm
      subst this
      exact absurd hd (by decide)⟩,
    ⟨crcEnds_fit.1, crcEnds_fit.2.1⟩, crcEnds_fit.2.2.1, crcEnds_fit.2.2.2⟩

theorem witness_CrcReadsTheCoprocessor : (64 : Byte).toNat ≤ 64 ∧ (answering (crcReady.answers ++ [])).ready ∧
    crcReady.fits (answering []).cfg ∧ crcExhausted.fits (answering []).cfg ∧
    (answering (crcReady.answers ++ [])).answers = crcReady.answers ++ [] ∧ 64 < (65 : Byte).toNat ∧
    base.busy = false :=
  ⟨by decide, answering_ready _, crcEnds_fit.1, crcEnds_fit.2.2.1, rfl, by decide, by decide⟩

/-- A receive of two bytes over an RXBUF of zeros. -/
theorem witness_ReceiveStoresInOrder : ∀ (i : Nat) (h : i < 64),
    (base.rxbuf.set 0 0x11 |>.set 1 0x22)[i] =
      if hx : i < [(0x11 : Byte), 0x22].length then [(0x11 : Byte), 0x22][i] else base.rxbuf[i] :=
  witness_RregnReadsInOrder.2.2.2.2.2.1.2

end Sys2Proof.Tests
end

/-! The family 00_scope: one chip-port event a step (R13, R66 to R68), and what a receive stores (R12). Of a sequencer
step only `drive` and `afterRead` act on the chip port; the internal computation around them (R18) writes nothing but
RESULT, CODE, PSTATE, RXLEN, RXBUF, UID, CRCRES and the position. `State.outside` is the state with these eight blanked,
and one lemma per function says that it keeps the rest. -/

namespace Sys2Proof.Machine

/-! What internal computation keeps. -/

/-- The part of the state outside the reach of internal computation: what that may write is set to fixed values. -/
def State.outside (s : State) : State :=
  { s with result := false, code := .ok, pstate := .idle, rxlen := 0, rxbuf := .replicate 64 0, uid := .replicate 5 0,
           crcres := .replicate 2 0, pos := .idle }

/-- States that agree outside internal computation agree at the chip port. -/
theorem port_eq_of_outside_eq {s t : State} (h : t.outside = s.outside) :
    t.history = s.history ∧ t.answers = s.answers ∧ t.rstN = s.rstN :=
  ⟨show t.outside.history = s.outside.history by rw [h], show t.outside.answers = s.outside.answers by rw [h],
    show t.outside.rstN = s.outside.rstN by rw [h]⟩

@[simp] theorem finish_outside (c : Status) (r : Bool) (s : State) : (finish c r s).outside = s.outside := rfl

@[simp] theorem setPState_outside (p : PState) (s : State) : (setPState p s).outside = s.outside := rfl

@[simp] theorem failCard_outside (c : Status) (s : State) : (failCard c s).outside = s.outside := rfl

@[simp] theorem toOutput_outside (o : Out) (rest : List Out) (next : After) (s : State) :
    (toOutput o rest next s).outside = s.outside := rfl

@[simp] theorem toInput_outside (a : Byte) (k : Await) (s : State) : (toInput a k s).outside = s.outside := rfl

@[simp] theorem receive_outside (xs : List Byte) (s : State) : (receive xs s).outside = s.outside := rfl

@[simp] theorem storeCrc_outside (hi lo : Byte) (s : State) : (storeCrc hi lo s).outside = s.outside := rfl

@[simp] theorem copyUid_outside (s : State) : (copyUid s).outside = s.outside := rfl

/-! The procedures as they start. -/

@[simp] theorem startCommunicate_outside (cmd : BitVec 4) (tx : List Byte) (cap : Nat) (caller : CommCaller)
    (s : State) : (startCommunicate cmd tx cap caller s).outside = s.outside := rfl

@[simp] theorem startFrame_outside (framing : Byte) (tx : List Byte) (caller : CommCaller) (s : State) :
    (startFrame framing tx caller s).outside = s.outside := rfl

@[simp] theorem startSendWithCRC_outside (body : List Byte) (caller : CommCaller) (s : State) :
    (startSendWithCRC body caller s).outside = s.outside := rfl

@[simp] theorem startVerifyCRC_outside (k : Nat) (caller : VerifyCaller) (s : State) :
    (startVerifyCRC k caller s).outside = s.outside := rfl

@[simp] theorem startWaitForBootUp_outside (caller : BootCaller) (s : State) :
    (startWaitForBootUp caller s).outside = s.outside := rfl

@[simp] theorem startCheckError_outside (caller : ErrorCaller) (s : State) :
    (startCheckError caller s).outside = s.outside := rfl

@[simp] theorem startBulkRead_outside (a : Byte) (left : Nat) (caller : BulkCaller) (s : State) :
    (startBulkRead a left caller s).outside = s.outside := rfl

@[simp] theorem startSetBits_outside (a m : Byte) (rest : List Out) (next : After) (s : State) :
    (startSetBits a m rest next s).outside = s.outside := rfl

@[simp] theorem startIspres_outside (caller : CommCaller) (s : State) :
    (startIspres caller s).outside = s.outside := rfl

@[simp] theorem startGetuid_outside (caller : CommCaller) (s : State) :
    (startGetuid caller s).outside = s.outside := rfl

@[simp] theorem startCapture_outside (s : State) : (startCapture s).outside = s.outside := rfl

/-! The commands as a procedure returns to them. -/

@[simp] theorem ispresState_outside (c : Status) (s : State) : (ispresState c s).outside = s.outside := rfl

@[simp] theorem getuidState_outside (c : Status) (s : State) : (getuidState c s).outside = s.outside := rfl

@[simp] theorem waitPresentReturned_outside (c : Status) (s : State) :
    (waitPresentReturned c s).outside = s.outside := by
  unfold waitPresentReturned; split <;> simp

@[simp] theorem waitUidReturned_outside (c : Status) (s : State) : (waitUidReturned c s).outside = s.outside := by
  unfold waitUidReturned; split <;> simp

@[simp] theorem selectReturned_outside (c : Status) (s : State) : (selectReturned c s).outside = s.outside := by
  unfold selectReturned; split_ifs <;> simp

@[simp] theorem selectVerified_outside (c : Status) (s : State) : (selectVerified c s).outside = s.outside := by
  unfold selectVerified; split <;> simp

@[simp] theorem authEnd_outside (c : Status) (s : State) : (authEnd c s).outside = s.outside := rfl

@[simp] theorem authReturned_outside (c : Status) (s : State) : (authReturned c s).outside = s.outside := by
  unfold authReturned; split <;> simp

@[simp] theorem rdblkReturned_outside (c : Status) (s : State) : (rdblkReturned c s).outside = s.outside := by
  unfold rdblkReturned; split_ifs <;> simp

@[simp] theorem rdblkVerified_outside (c : Status) (s : State) : (rdblkVerified c s).outside = s.outside := by
  unfold rdblkVerified; split <;> simp

@[simp] theorem wrblkCommandReturned_outside (c : Status) (s : State) :
    (wrblkCommandReturned c s).outside = s.outside := by
  unfold wrblkCommandReturned; split_ifs <;> simp

@[simp] theorem wrblkDataReturned_outside (c : Status) (s : State) :
    (wrblkDataReturned c s).outside = s.outside := by
  unfold wrblkDataReturned; split_ifs <;> simp

@[simp] theorem initBooted_outside (c : Status) (s : State) : (initBooted c s).outside = s.outside := by
  unfold initBooted; split <;> simp

@[simp] theorem selftestBooted_outside (c : Status) (s : State) : (selftestBooted c s).outside = s.outside := by
  unfold selftestBooted; split <;> simp

/-! The procedures as they return to their callers. -/

@[simp] theorem communicateReturns_outside (caller : CommCaller) (c : Status) (s : State) :
    (communicateReturns caller c s).outside = s.outside := by
  cases caller <;> simp [communicateReturns, commReturned, ispresReturned, getuidReturned]

@[simp] theorem verifyReturns_outside (caller : VerifyCaller) (c : Status) (s : State) :
    (verifyReturns caller c s).outside = s.outside := by
  cases caller <;> simp [verifyReturns]

@[simp] theorem calculateCRCReturns_outside (caller : CrcCaller) (c : Status) (s : State) :
    (calculateCRCReturns caller c s).outside = s.outside := by
  cases caller with
  | crc => simp [calculateCRCReturns, crcCommandReturned]
  | send body sender => simp only [calculateCRCReturns]; split <;> simp
  | verify k verifier => simp [calculateCRCReturns]

@[simp] theorem waitForBootUpReturns_outside (caller : BootCaller) (c : Status) (s : State) :
    (waitForBootUpReturns caller c s).outside = s.outside := by
  cases caller <;> simp [waitForBootUpReturns]

@[simp] theorem checkErrorReturns_outside (caller : ErrorCaller) (c : Status) (s : State) :
    (checkErrorReturns caller c s).outside = s.outside := by
  cases caller with
  | chkerr => simp [checkErrorReturns]
  | communicate cap sender => simp only [checkErrorReturns]; split <;> simp

@[simp] theorem bulkReturns_outside (caller : BulkCaller) (xs : List Byte) (s : State) :
    (bulkReturns caller xs s).outside = s.outside := by
  cases caller <;> simp [bulkReturns, rregnAnswered, captured]

/-! The polls and the bulk read. -/

@[simp] theorem bootPolled_outside (k : Nat) (caller : BootCaller) (v : Byte) (s : State) :
    (bootPolled k caller v s).outside = s.outside := by
  unfold bootPolled; split_ifs <;> simp

@[simp] theorem comPolled_outside (k : Nat) (cmd : BitVec 4) (cap : Nat) (caller : CommCaller) (v : Byte) (s : State) :
    (comPolled k cmd cap caller v s).outside = s.outside := by
  unfold comPolled; split_ifs <;> simp

@[simp] theorem levelRead_outside (cap : Nat) (c : Status) (caller : CommCaller) (v : Byte) (s : State) :
    (levelRead cap c caller v s).outside = s.outside := by
  unfold levelRead; split <;> simp

@[simp] theorem crcPolled_outside (k : Nat) (caller : CrcCaller) (v : Byte) (s : State) :
    (crcPolled k caller v s).outside = s.outside := by
  unfold crcPolled; split_ifs <;> simp

@[simp] theorem fillPolled_outside (k : Nat) (v : Byte) (s : State) : (fillPolled k v s).outside = s.outside := by
  unfold fillPolled; split_ifs <;> simp

@[simp] theorem bulkRead_outside (a : Byte) (left : Nat) (got : List Byte) (caller : BulkCaller) (v : Byte)
    (s : State) : (bulkRead a left got caller v s).outside = s.outside := by
  cases left <;> simp [bulkRead]

/-! Everything that follows a primitive. -/

@[simp] theorem proceed_outside (next : After) (s : State) : (proceed next s).outside = s.outside := by
  cases next <;> simp [proceed, antennaIsOff, selftestJudged]

@[simp] theorem answered_outside (k : Await) (v : Byte) (s : State) : (answered k v s).outside = s.outside := by
  cases k <;> simp [answered, rregAnswered, authAnswered]

@[simp] theorem afterOutput_outside (rest : List Out) (next : After) (s : State) :
    (afterOutput rest next s).outside = s.outside := by
  cases rest <;> simp [afterOutput]

@[simp] theorem leavePosition_outside (s : State) : (leavePosition s).outside = s.outside := rfl

/-! One step. -/

/-- Outside internal computation, a step at an output is that output. -/
theorem sequencerStep_outside_of_output {s : State} {o : Out} {rest : List Out} {next : After}
    (h : s.pos = .output o rest next) : (sequencerStep s).outside = (drive o s).outside := by
  simp only [sequencerStep, h, afterOutput_outside]
  cases o <;> rfl

/-- Outside internal computation, a step at an input is that read. -/
theorem sequencerStep_outside_of_input {s : State} {a : Byte} {k : Await} (h : s.pos = .input a k) :
    (sequencerStep s).outside = (afterRead a s).outside := by
  simp only [sequencerStep, h, answered_outside]
  rfl

/-- Settles O25: only the primitive at the position acts on the chip port. -/
theorem oneEventPerSequencerStep : Obligations.OneEventPerSequencerStep := by
  intro s
  refine ⟨fun hb => ?_, fun a v rest next h => ?_, fun l rest next h => ?_, fun a k h => ?_⟩
  · exact sequencerStep_idle ((busy_eq_false_iff s).1 hb)
  · exact port_eq_of_outside_eq (sequencerStep_outside_of_output h)
  · exact port_eq_of_outside_eq (sequencerStep_outside_of_output h)
  · exact port_eq_of_outside_eq (sequencerStep_outside_of_input h)

/-! Buffers. -/

/-- A store, byte by byte: the list's element where there is one, and the old byte elsewhere. -/
theorem storeBytes_getElem_dite {n : Nat} (xs : List Byte) (buf : Vector Byte n) (i : Nat) (h : i < n) :
    (storeBytes xs buf)[i] = if hx : i < xs.length then xs[i] else buf[i] := by
  rw [storeBytes_getElem]
  by_cases hx : i < xs.length <;> simp [hx]

/-- Settles O59: a buffer with the bytes that the statement lists is the stored one. -/
theorem receiveStoresInOrder : Obligations.ReceiveStoresInOrder := by
  refine ⟨fun n xs buf i h => storeBytes_getElem_dite xs buf i h, fun xs s b hb => ?_⟩
  have stored : b = storeBytes xs s.rxbuf :=
    Vector.ext fun i h => (hb i h).trans (storeBytes_getElem_dite xs s.rxbuf i h).symm
  rw [stored]
  rfl

end Sys2Proof.Machine

/-! The family 10_state, the invariant (R28, R29, R35, R76, R77, R162, R166). Internal computation (R18) never sets up a
pin output, so what it keeps is more than the invariant: `Sound` forbids a pin at the position and holds the legal
configuration that every start of a procedure relies on. One lemma per function says that it keeps `Sound`, under the
bounds of its arguments; a step's own primitive and the start of HRST and INIT are then the only places with a pin. -/

namespace Sys2Proof.Machine

/-! The configuration and the invariant, taken apart. -/

/-- `configOk`, field by field. -/
structure LegalConfig (cfg : Config) : Prop where
  regCommand : isChipAddr cfg.regCommand = true
  regComIrq : isChipAddr cfg.regComIrq = true
  regDivIrq : isChipAddr cfg.regDivIrq = true
  regError : isChipAddr cfg.regError = true
  regAuthStatus : isChipAddr cfg.regAuthStatus = true
  regFifoData : isChipAddr cfg.regFifoData = true
  regFifoLevel : isChipAddr cfg.regFifoLevel = true
  regBitFraming : isChipAddr cfg.regBitFraming = true
  regTxControl : isChipAddr cfg.regTxControl = true
  regCrcResultH : isChipAddr cfg.regCrcResultH = true
  regCrcResultL : isChipAddr cfg.regCrcResultL = true
  regAutoTest : isChipAddr cfg.regAutoTest = true
  initSeq : ∀ e ∈ cfg.initSeq, isChipAddr e.1 = true
  pollMax : 0 < cfg.pollMax
  crcPollMax : 0 < cfg.crcPollMax
  selftestPollMax : 0 < cfg.selftestPollMax

theorem legalConfig_of_configOk {cfg : Config} (h : configOk cfg = true) : LegalConfig cfg := by
  obtain ⟨registers, initSeq, pollMax, crcPollMax, selftestPollMax, -⟩ := (configOk_iff cfg).1 h
  simp only [registerParameters, List.forall_mem_cons] at registers
  obtain ⟨command, comIrq, divIrq, error, authStatus, fifoData, fifoLevel, bitFraming, txControl, crcResultH, crcResultL,
    autoTest, -⟩ := registers
  exact ⟨command, comIrq, divIrq, error, authStatus, fifoData, fifoLevel, bitFraming, txControl, crcResultH, crcResultL,
    autoTest, initSeq, Nat.pos_of_ne_zero pollMax, Nat.pos_of_ne_zero crcPollMax, Nat.pos_of_ne_zero selftestPollMax⟩

/-- The invariant, part by part. -/
theorem inv_iff (s : State) : s.inv = true ↔
    s.rxlen ≤ 64 ∧ s.pstate ≠ .halted ∧ s.history.all eventInRange = true ∧
      posOk s.cfg (drivesRstN s) s.pos = true := by
  simp only [State.inv, Bool.and_eq_true, decide_eq_true_eq, and_assoc]

/-- The invariant reads RXLEN, PSTATE, the history, the configuration, OP and the position only. -/
theorem inv_congr {s t : State} (hl : t.rxlen = s.rxlen) (hp : t.pstate = s.pstate) (hh : t.history = s.history)
    (hc : t.cfg = s.cfg) (ho : t.op = s.op) (hpos : t.pos = s.pos) : t.inv = s.inv := by
  simp only [State.inv, drivesRstN, hl, hp, hh, hc, ho, hpos]

/-- What internal computation keeps: a legal configuration, and the invariant with no pin at the position. -/
structure Sound (s : State) : Prop where
  config : LegalConfig s.cfg
  rxlen : s.rxlen ≤ 64
  pstate : s.pstate ≠ .halted
  history : s.history.all eventInRange = true
  pos : posOk s.cfg false s.pos = true

theorem outOk_of_no_pins {o : Out} (pins : Bool) (h : outOk false o = true) : outOk pins o = true := by
  cases o with
  | write a v => exact h
  | pin l => cases h

theorem writesOf_all_outOk {a : Byte} (ha : isChipAddr a = true) (xs : List Byte) (pins : Bool) :
    (writesOf a xs).all (outOk pins) = true := by
  simp [writesOf, outOk, ha]

theorem posOk_of_no_pins {cfg : Config} {p : Pos} (pins : Bool) (h : posOk cfg false p = true) :
    posOk cfg pins p = true := by
  cases p with
  | idle => rfl
  | input a k => exact h
  | output o rest next =>
    simp only [posOk, Bool.and_eq_true, List.all_eq_true] at h ⊢
    obtain ⟨⟨ho, hrest⟩, hnext⟩ := h
    exact ⟨⟨outOk_of_no_pins pins ho, fun o' ho' => outOk_of_no_pins pins (hrest o' ho')⟩, hnext⟩

theorem inv_of_sound {s : State} (h : Sound s) : s.inv = true :=
  (inv_iff s).2 ⟨h.rxlen, h.pstate, h.history, posOk_of_no_pins _ h.pos⟩

section
variable {s : State} (h : Sound s)
include h

/-! The shared operations. -/

theorem finish_sound (c : Status) (r : Bool) : Sound (finish c r s) :=
  ⟨h.config, h.rxlen, h.pstate, h.history, rfl⟩

theorem setPState_sound {p : PState} (hp : p ≠ .halted) : Sound (setPState p s) :=
  ⟨h.config, h.rxlen, hp, h.history, h.pos⟩

theorem failCard_sound (c : Status) : Sound (failCard c s) := finish_sound (setPState_sound h (by decide)) _ _

theorem toOutput_sound {o : Out} {rest : List Out} {next : After} (ho : outOk false o = true)
    (hrest : rest.all (outOk false) = true) (hnext : afterOk next = true) : Sound (toOutput o rest next s) :=
  ⟨h.config, h.rxlen, h.pstate, h.history, by simp [posOk, ho, hrest, hnext]⟩

theorem toInput_sound {a : Byte} {k : Await} (ha : isChipAddr a = true) (hk : awaitOk s.cfg k = true) :
    Sound (toInput a k s) :=
  ⟨h.config, h.rxlen, h.pstate, h.history, by simp [posOk, ha, hk]⟩

theorem receive_sound {xs : List Byte} (hx : xs.length ≤ 64) : Sound (receive xs s) :=
  ⟨h.config, hx, h.pstate, h.history, h.pos⟩

theorem storeCrc_sound (hi lo : Byte) : Sound (storeCrc hi lo s) :=
  ⟨h.config, h.rxlen, h.pstate, h.history, h.pos⟩

theorem copyUid_sound : Sound (copyUid s) := ⟨h.config, h.rxlen, h.pstate, h.history, h.pos⟩

/-! The procedures as they start. -/

theorem startCommunicate_sound (cmd : BitVec 4) (tx : List Byte) {cap : Nat} (hcap : cap ≤ 64) (caller : CommCaller) :
    Sound (startCommunicate cmd tx cap caller s) := by
  have cleared : Sound { s with rxlen := 0 } := ⟨h.config, Nat.zero_le _, h.pstate, h.history, h.pos⟩
  refine toOutput_sound cleared h.config.regCommand ?_ ?_
  · simp [outOk, h.config.regCommand, h.config.regComIrq, h.config.regFifoLevel,
      writesOf_all_outOk h.config.regFifoData]
  · split <;> simp [afterOk, hcap]

theorem startFrame_sound (framing : Byte) {tx : List Byte} (htx : tx.length ≤ 64) (caller : CommCaller) :
    Sound (startFrame framing tx caller s) :=
  toOutput_sound h h.config.regBitFraming rfl (by simp [afterOk, htx])

theorem startCalculateCRC_sound (data : List Byte) {caller : CrcCaller} (hcaller : crcCallerOk caller = true) :
    Sound (startCalculateCRC data caller s) := by
  refine toOutput_sound h h.config.regCommand ?_ hcaller
  simp [outOk, h.config.regCommand, h.config.regDivIrq, h.config.regFifoLevel,
    writesOf_all_outOk h.config.regFifoData]

theorem startSendWithCRC_sound {body : List Byte} (hbody : body.length + 2 ≤ 64) (caller : CommCaller) :
    Sound (startSendWithCRC body caller s) := startCalculateCRC_sound h _ (decide_eq_true hbody)

theorem startVerifyCRC_sound (k : Nat) (caller : VerifyCaller) : Sound (startVerifyCRC k caller s) :=
  startCalculateCRC_sound h _ rfl

theorem startWaitForBootUp_sound (caller : BootCaller) : Sound (startWaitForBootUp caller s) := by
  refine toInput_sound h h.config.regCommand ?_
  simp only [awaitOk]
  split
  · rfl
  · exact decide_eq_true (by omega)

theorem startCheckError_sound {caller : ErrorCaller} (hcaller : awaitOk s.cfg (.error caller) = true) :
    Sound (startCheckError caller s) := toInput_sound h h.config.regError hcaller

theorem startBulkRead_sound {a : Byte} (ha : isChipAddr a = true) {left : Nat} (hleft : left + 1 ≤ 64)
    (caller : BulkCaller) : Sound (startBulkRead a left caller s) :=
  toInput_sound h ha (by simp [awaitOk, ha]; omega)

theorem startSetBits_sound {a : Byte} (ha : isChipAddr a = true) (m : Byte) {rest : List Out}
    (hrest : rest.all (outOk false) = true) {next : After} (hnext : afterOk next = true) :
    Sound (startSetBits a m rest next s) := toInput_sound h ha (by simp [awaitOk, ha, hrest, hnext])

theorem startClearBits_sound {a : Byte} (ha : isChipAddr a = true) (m : Byte) {next : After}
    (hnext : afterOk next = true) : Sound (startClearBits a m next s) :=
  toInput_sound h ha (by simp [awaitOk, ha, hnext])

theorem startIspres_sound (caller : CommCaller) : Sound (startIspres caller s) := startFrame_sound h _ (by simp) _

theorem startGetuid_sound (caller : CommCaller) : Sound (startGetuid caller s) :=
  startFrame_sound (setPState_sound h (by decide)) _ (by simp) _

theorem startCapture_sound : Sound (startCapture s) := startBulkRead_sound h h.config.regFifoData (by decide) _

/-! The commands as a procedure returns to them. -/

theorem ispresState_sound (c : Status) : Sound (ispresState c s) := setPState_sound h (by split <;> decide)

theorem getuidState_sound (c : Status) : Sound (getuidState c s) := setPState_sound h (by split <;> decide)

theorem waitPresentReturned_sound (c : Status) : Sound (waitPresentReturned c s) := by
  unfold waitPresentReturned
  split
  · exact startGetuid_sound (ispresState_sound h c) _
  · exact startIspres_sound (ispresState_sound h c) _

theorem waitUidReturned_sound (c : Status) : Sound (waitUidReturned c s) := by
  have copied := getuidState_sound (copyUid_sound h) c
  unfold waitUidReturned
  split
  · exact finish_sound copied _ _
  · exact startIspres_sound copied _

theorem selectReturned_sound (c : Status) : Sound (selectReturned c s) := by
  unfold selectReturned
  split_ifs
  · exact failCard_sound h _
  · exact failCard_sound h _
  · exact startVerifyCRC_sound h _ _

theorem selectVerified_sound (c : Status) : Sound (selectVerified c s) := by
  unfold selectVerified
  split
  · exact finish_sound (setPState_sound h (by decide)) _ _
  · exact failCard_sound h _

theorem authEnd_sound (c : Status) : Sound (authEnd c s) :=
  finish_sound (setPState_sound h (by split <;> decide)) _ _

theorem authReturned_sound (c : Status) : Sound (authReturned c s) := by
  unfold authReturned
  split
  · exact toInput_sound h h.config.regAuthStatus rfl
  · exact authEnd_sound h _

theorem rdblkReturned_sound (c : Status) : Sound (rdblkReturned c s) := by
  unfold rdblkReturned
  split_ifs
  · exact failCard_sound h _
  · exact failCard_sound h _
  · exact startVerifyCRC_sound h _ _

theorem rdblkVerified_sound (c : Status) : Sound (rdblkVerified c s) := by
  unfold rdblkVerified
  split
  · exact finish_sound h _ _
  · exact failCard_sound h _

theorem wrblkCommandReturned_sound (c : Status) : Sound (wrblkCommandReturned c s) := by
  unfold wrblkCommandReturned
  split_ifs
  · exact failCard_sound h _
  · exact startSendWithCRC_sound h (by simp) _
  · exact failCard_sound h _

theorem wrblkDataReturned_sound (c : Status) : Sound (wrblkDataReturned c s) := by
  unfold wrblkDataReturned
  split_ifs
  · exact failCard_sound h _
  · exact finish_sound h _ _
  · exact failCard_sound h _

theorem initBooted_sound (c : Status) : Sound (initBooted c s) := by
  unfold initBooted
  split
  · refine startSetBits_sound h h.config.regTxControl _ ?_ rfl
    simpa [outOk] using fun a v he => h.config.initSeq (a, v) he
  · exact finish_sound h _ _

theorem selftestBooted_sound (c : Status) : Sound (selftestBooted c s) := by
  unfold selftestBooted
  split
  · refine toOutput_sound h h.config.regFifoLevel ?_ rfl
    simp [outOk, h.config.regCommand, h.config.regAutoTest, h.config.regFifoData,
      writesOf_all_outOk h.config.regFifoData]
  · exact finish_sound h _ _

theorem selftestJudged_sound {xs : List Byte} (hx : xs.length ≤ 64) : Sound (selftestJudged xs s) :=
  finish_sound (receive_sound h hx) _ _

/-! The procedures as they return to their callers. -/

theorem communicateReturns_sound (caller : CommCaller) (c : Status) : Sound (communicateReturns caller c s) := by
  cases caller with
  | comm => exact finish_sound h _ _
  | ispres => exact finish_sound (ispresState_sound h c) _ _
  | getuid => exact finish_sound (getuidState_sound (copyUid_sound h) c) _ _
  | waitPresent => exact waitPresentReturned_sound h c
  | waitUid => exact waitUidReturned_sound h c
  | select => exact selectReturned_sound h c
  | auth => exact authReturned_sound h c
  | rdblk => exact rdblkReturned_sound h c
  | wrblkCommand => exact wrblkCommandReturned_sound h c
  | wrblkData => exact wrblkDataReturned_sound h c

theorem verifyReturns_sound (caller : VerifyCaller) (c : Status) : Sound (verifyReturns caller c s) := by
  cases caller with
  | select => exact selectVerified_sound h c
  | rdblk => exact rdblkVerified_sound h c

theorem calculateCRCReturns_sound {caller : CrcCaller} (hcaller : crcCallerOk caller = true) (c : Status) :
    Sound (calculateCRCReturns caller c s) := by
  cases caller with
  | crc => exact finish_sound h _ _
  | verify k verifier => exact verifyReturns_sound h _ _
  | send body sender =>
    have framed : body.length + 2 ≤ 64 := of_decide_eq_true hcaller
    simp only [calculateCRCReturns]
    split
    · exact startFrame_sound h _ (by simpa using framed) _
    · exact communicateReturns_sound h _ _

theorem waitForBootUpReturns_sound (caller : BootCaller) (c : Status) :
    Sound (waitForBootUpReturns caller c s) := by
  cases caller with
  | plain => exact finish_sound h _ _
  | init => exact initBooted_sound h c
  | selftest => exact selftestBooted_sound h c

theorem checkErrorReturns_sound {caller : ErrorCaller} (hcaller : awaitOk s.cfg (.error caller) = true) (c : Status) :
    Sound (checkErrorReturns caller c s) := by
  cases caller with
  | chkerr => exact finish_sound h _ _
  | communicate cap sender =>
    simp only [checkErrorReturns]
    split
    · exact toInput_sound h h.config.regFifoLevel hcaller
    · exact communicateReturns_sound h _ _

theorem bulkReturns_sound (caller : BulkCaller) {xs : List Byte} (hx : xs.length ≤ 64) :
    Sound (bulkReturns caller xs s) := by
  cases caller with
  | rregn => exact finish_sound (receive_sound h hx) _ _
  | communicate c sender => exact communicateReturns_sound (receive_sound h hx) _ _
  | selftest => exact toOutput_sound h h.config.regAutoTest rfl (decide_eq_true hx)

/-! The polls and the bulk read. -/

theorem bootPolled_sound {k : Nat} {caller : BootCaller} (hk : awaitOk s.cfg (.boot k caller) = true) (v : Byte) :
    Sound (bootPolled k caller v s) := by
  unfold bootPolled
  split_ifs with hv hmax
  · exact waitForBootUpReturns_sound h _ _
  · refine toInput_sound h h.config.regCommand ?_
    cases hb : s.cfg.bootPollMax with
    | none => simp [awaitOk, hb]
    | some n =>
      simp only [awaitOk, hb, Option.some.injEq, decide_eq_true_eq] at hk hmax ⊢
      omega
  · exact waitForBootUpReturns_sound h _ _

theorem comPolled_sound {k cap : Nat} (hk : k < s.cfg.pollMax) (hcap : cap ≤ 64) (cmd : BitVec 4)
    (caller : CommCaller) (v : Byte) : Sound (comPolled k cmd cap caller v s) := by
  unfold comPolled
  split_ifs
  · exact communicateReturns_sound h _ _
  · exact startCheckError_sound h (decide_eq_true hcap)
  · exact communicateReturns_sound h _ _
  · exact toInput_sound h h.config.regComIrq (by simp [awaitOk, hcap]; omega)

theorem levelRead_sound {cap : Nat} (hcap : cap ≤ 64) (c : Status) (caller : CommCaller) (v : Byte) :
    Sound (levelRead cap c caller v s) := by
  unfold levelRead
  split
  · exact bulkReturns_sound h _ (by simp)
  · exact startBulkRead_sound h h.config.regFifoData (by omega) _

theorem crcPolled_sound {k : Nat} (hk : k < s.cfg.crcPollMax) {caller : CrcCaller}
    (hcaller : crcCallerOk caller = true) (v : Byte) : Sound (crcPolled k caller v s) := by
  unfold crcPolled
  split_ifs
  · exact toInput_sound h h.config.regCrcResultH hcaller
  · exact calculateCRCReturns_sound h hcaller _
  · exact toInput_sound h h.config.regDivIrq (by simp [awaitOk, hcaller]; omega)

theorem fillPolled_sound {k : Nat} (hk : k < s.cfg.selftestPollMax) (v : Byte) : Sound (fillPolled k v s) := by
  unfold fillPolled
  split_ifs
  · exact toOutput_sound h h.config.regCommand rfl rfl
  · exact toOutput_sound h h.config.regCommand (by simp [outOk, h.config.regAutoTest]) rfl
  · exact toInput_sound h h.config.regFifoLevel (decide_eq_true (by omega))

theorem bulkRead_sound {a : Byte} (ha : isChipAddr a = true) {left : Nat} {got : List Byte}
    (hlen : got.length + left + 1 ≤ 64) (caller : BulkCaller) (v : Byte) :
    Sound (bulkRead a left got caller v s) := by
  cases left with
  | zero => exact bulkReturns_sound h _ (by simpa using hlen)
  | succ left => exact toInput_sound h ha (by simp [awaitOk, ha]; omega)

/-! Everything that follows a primitive. -/

theorem proceed_sound {next : After} (hnext : afterOk next = true) : Sound (proceed next s) := by
  cases next with
  | done => exact finish_sound h _ _
  | fillTimeOut => exact finish_sound h _ _
  | antennaOff => exact finish_sound (setPState_sound h (by decide)) _ _
  | pollBoot caller => exact startWaitForBootUp_sound h _
  | exchange cmd tx cap caller =>
    simp only [afterOk, Bool.and_eq_true, decide_eq_true_eq] at hnext
    exact startCommunicate_sound h _ _ hnext.2 _
  | startSend cmd cap caller => exact startSetBits_sound h h.config.regBitFraming _ rfl hnext
  | pollCom cmd cap caller =>
    exact toInput_sound h h.config.regComIrq
      (by simp [awaitOk, h.config.pollMax, of_decide_eq_true hnext])
  | pollCrc caller =>
    exact toInput_sound h h.config.regDivIrq (by simpa [awaitOk, h.config.crcPollMax, afterOk] using hnext)
  | pollFill => exact toInput_sound h h.config.regFifoLevel (decide_eq_true h.config.selftestPollMax)
  | capture => exact startCapture_sound h
  | judge xs => exact selftestJudged_sound h (of_decide_eq_true hnext)

theorem answered_sound {k : Await} (hk : awaitOk s.cfg k = true) (v : Byte) : Sound (answered k v s) := by
  cases k with
  | rreg => exact finish_sound (receive_sound h (by simp)) _ _
  | bulk a left got caller =>
    simp only [awaitOk, Bool.and_eq_true, decide_eq_true_eq] at hk
    obtain ⟨ha, hlen⟩ := hk
    exact bulkRead_sound h ha hlen _ _
  | setBits a m rest next =>
    simp only [awaitOk, Bool.and_eq_true] at hk
    obtain ⟨⟨ha, hrest⟩, hnext⟩ := hk
    exact toOutput_sound h ha hrest hnext
  | clearBits a m next =>
    simp only [awaitOk, Bool.and_eq_true] at hk
    obtain ⟨ha, hnext⟩ := hk
    exact toOutput_sound h ha rfl hnext
  | boot k caller => exact bootPolled_sound h hk v
  | error caller => exact checkErrorReturns_sound h hk _
  | comIrq k cmd cap caller =>
    simp only [awaitOk, Bool.and_eq_true, decide_eq_true_eq] at hk
    obtain ⟨hpoll, hcap⟩ := hk
    exact comPolled_sound h hpoll hcap _ _ _
  | level cap c caller => exact levelRead_sound h (of_decide_eq_true hk) _ _ _
  | divIrq k caller =>
    simp only [awaitOk, Bool.and_eq_true, decide_eq_true_eq] at hk
    obtain ⟨hpoll, hcaller⟩ := hk
    exact crcPolled_sound h hpoll hcaller _
  | crcHigh caller => exact toInput_sound h h.config.regCrcResultL hk
  | crcLow hi caller => exact calculateCRCReturns_sound (storeCrc_sound h _ _) hk _
  | fill k => exact fillPolled_sound h (of_decide_eq_true hk) _
  | authStatus => exact authEnd_sound h _

/-! The primitives, and outputs that may be pins. -/

theorem toOutput_inv {o : Out} {rest : List Out} {next : After} (ho : outOk (drivesRstN s) o = true)
    (hrest : rest.all (outOk (drivesRstN s)) = true) (hnext : afterOk next = true) :
    (toOutput o rest next s).inv = true :=
  (inv_iff _).2 ⟨h.rxlen, h.pstate, h.history,
    show (outOk (drivesRstN s) o && rest.all (outOk (drivesRstN s)) && afterOk next) = true by
      rw [ho, hrest, hnext]; rfl⟩

theorem afterOutput_inv {rest : List Out} {next : After} (hrest : rest.all (outOk (drivesRstN s)) = true)
    (hnext : afterOk next = true) : (afterOutput rest next s).inv = true := by
  cases rest with
  | nil => exact inv_of_sound (proceed_sound h hnext)
  | cons o rest =>
    simp only [List.all_cons, Bool.and_eq_true] at hrest
    exact toOutput_inv h hrest.1 hrest.2 hnext

theorem drive_sound {o : Out} {pins : Bool} (ho : outOk pins o = true) : Sound (drive o s) := by
  cases o with
  | write a v =>
    have logged : (drive (.write a v) s).history.all eventInRange = true := by
      simp only [drive_write_history, List.all_append, h.history]
      simpa [eventInRange, outOk] using ho
    exact ⟨h.config, h.rxlen, h.pstate, logged, h.pos⟩
  | pin l =>
    have logged : (drive (.pin l) s).history.all eventInRange = true := by
      simp only [drive_pin_history, List.all_append, h.history]
      rfl
    exact ⟨h.config, h.rxlen, h.pstate, logged, h.pos⟩

theorem afterRead_sound {a : Byte} (ha : isChipAddr a = true) : Sound (afterRead a s) := by
  have logged : (afterRead a s).history.all eventInRange = true := by
    simp only [afterRead, List.all_append, h.history]
    simpa [eventInRange] using ha
  exact ⟨h.config, h.rxlen, h.pstate, logged, h.pos⟩

end

/-! Steps and turns. -/

/-- With a legal configuration, the invariant makes the state sound once its position is left. -/
theorem leavePosition_sound {s : State} (hc : configOk s.cfg = true) (h : s.inv = true) : Sound (leavePosition s) := by
  obtain ⟨hrxlen, hpstate, hhistory, -⟩ := (inv_iff s).1 h
  exact ⟨legalConfig_of_configOk hc, hrxlen, hpstate, hhistory, rfl⟩

theorem sequencerStep_inv {s : State} (hc : configOk s.cfg = true) (h : s.inv = true) :
    (sequencerStep s).inv = true := by
  have left := leavePosition_sound hc h
  obtain ⟨-, -, -, hpos⟩ := (inv_iff s).1 h
  unfold sequencerStep
  split
  case h_1 => exact h
  case h_2 o rest next hp =>
    simp only [hp, posOk, Bool.and_eq_true] at hpos
    obtain ⟨⟨ho, hrest⟩, hnext⟩ := hpos
    refine afterOutput_inv (drive_sound left ho) ?_ hnext
    simpa [drivesRstN] using hrest
  case h_3 a k hp =>
    simp only [hp, posOk, Bool.and_eq_true] at hpos
    obtain ⟨ha, hk⟩ := hpos
    exact inv_of_sound (answered_sound (afterRead_sound left ha) hk _)

/-- A command within its limits starts with the invariant; HRST and INIT alone set up a pin (R35). -/
theorem startOf_inv {i : Instr} {s : State} (h : Sound s) (hop : s.op = i.opcode) (hw : i.wellFormed s.cfg = true) :
    (startOf i s).inv = true := by
  have idle : Sound (setPState .idle s) := setPState_sound h (by decide)
  cases i with
  | rreg addr => exact inv_of_sound (toInput_sound h hw rfl)
  | rregn addr n =>
    simp only [Instr.wellFormed, isLength, Bool.and_eq_true, decide_eq_true_eq] at hw
    cases hn : n.toNat with
    | zero => exact startOf_rregn_zero hn ▸ inv_of_sound (finish_sound (receive_sound h (by simp)) _ _)
    | succ left => exact startOf_rregn_succ hn ▸ inv_of_sound (startBulkRead_sound h hw.1 (by omega) _)
  | wreg addr v => exact inv_of_sound (toOutput_sound h hw rfl rfl)
  | wregn addr n =>
    simp only [Instr.wellFormed, Bool.and_eq_true] at hw
    cases hx : firstBytes n.toNat s.txbuf with
    | nil => exact startOf_wregn_nil hx ▸ inv_of_sound (finish_sound h _ _)
    | cons x xs =>
      exact startOf_wregn_cons hx ▸ inv_of_sound (toOutput_sound h hw.1 (writesOf_all_outOk hw.1 _ _) rfl)
  | setbm addr mask => exact inv_of_sound (startSetBits_sound h hw _ rfl rfl)
  | clrbm addr mask => exact inv_of_sound (startClearBits_sound h hw _ rfl)
  | hrst =>
    have pins : drivesRstN (setPState .idle s) = true := by simp [drivesRstN, hop]
    exact toOutput_inv idle (by simp [outOk, pins]) (by simp [outOk, pins]) rfl
  | srst => exact inv_of_sound (toOutput_sound idle h.config.regCommand rfl rfl)
  | waitboot => exact inv_of_sound (startWaitForBootUp_sound h _)
  | ant on =>
    simp only [startOf]
    split
    · exact inv_of_sound (startSetBits_sound h h.config.regTxControl _ rfl rfl)
    · exact inv_of_sound (startClearBits_sound h h.config.regTxControl _ rfl)
  | chkerr => exact inv_of_sound (startCheckError_sound h rfl)
  | init =>
    have pins : drivesRstN (setPState .idle s) = true := by simp [drivesRstN, hop]
    exact toOutput_inv idle (by simp [outOk, pins]) (by simp [outOk, pins]) rfl
  | selftest => exact inv_of_sound (toOutput_sound idle h.config.regCommand rfl rfl)
  | flush => exact inv_of_sound (toOutput_sound h h.config.regFifoLevel rfl rfl)
  | comm cmd len cap =>
    simp only [Instr.wellFormed, isLength, Bool.and_eq_true, decide_eq_true_eq] at hw
    exact inv_of_sound (startCommunicate_sound h _ _ hw.2 _)
  | ispres => exact inv_of_sound (startIspres_sound h _)
  | getuid => exact inv_of_sound (startGetuid_sound h _)
  | waituid => exact inv_of_sound (startIspres_sound h _)
  | select => exact inv_of_sound (startSendWithCRC_sound h (by simp [selectFrame]) _)
  | chkbcc => exact inv_of_sound (finish_sound h _ _)
  | uideq => exact inv_of_sound (finish_sound h _ _)
  | auth variant block => exact inv_of_sound (startCommunicate_sound h _ _ (le_refl 64) _)
  | rdblk block => exact inv_of_sound (startSendWithCRC_sound h (by simp) _)
  | wrblk block => exact inv_of_sound (startSendWithCRC_sound h (by simp) _)
  | crc n => exact inv_of_sound (startCalculateCRC_sound h _ rfl)

theorem raiseException_inv (c : Cause) (s : State) : (raiseException c s).inv = s.inv := by
  apply inv_congr <;> simp

theorem exec_inv {i : Instr} {s t : State} (hc : configOk s.cfg = true) (h : s.inv = true)
    (ht : exec i s = .next t) : t.inv = true := by
  rw [exec_eq] at ht
  rcases issue_cases i.opcode (i.wellFormed s.cfg) (startOf i) s with ⟨-, e⟩ | ⟨hb, hw, e⟩ | ⟨-, -, e⟩ <;>
    obtain rfl := Host.Outcome.next.inj (e.symm.trans ht)
  · rw [raiseException_inv, h]
  · have issued : Sound { s with op := i.opcode } := by
      obtain ⟨hconfig, hrxlen, hpstate, hhistory, -⟩ := leavePosition_sound hc h
      exact ⟨hconfig, hrxlen, hpstate, hhistory, by simp [(busy_eq_false_iff s).1 hb, posOk]⟩
    exact startOf_inv issued rfl hw
  · rw [raiseException_inv, h]

theorem storeUnlessBusy_inv {store : State → State} {s : State} (h : (store s).inv = s.inv) :
    (storeUnlessBusy store s).inv = s.inv := by
  unfold storeUnlessBusy
  split
  · exact raiseException_inv _ _
  · exact h

theorem writeLoc_inv (l : HostLoc) (v : Byte) (s : State) : (writeLoc l v s).inv = s.inv := by
  cases l with
  | argA | argB | argC | txbuf | uid | cmpuid | key => exact storeUnlessBusy_inv rfl
  | op | status | code | pstate | rxlen | exc | rxbuf | crcres | reserved => rfl

theorem writeOp_inv {v : Byte} {s t : State} (hc : configOk s.cfg = true) (h : s.inv = true)
    (ht : writeOp v s = .next t) : t.inv = true := by
  unfold writeOp at ht
  split at ht
  · cases ht
    rw [raiseException_inv, h]
  · split at ht
    · exact exec_inv hc h ht
    · cases ht
      rw [raiseException_inv, h]

theorem hostWrite_inv {a v : Byte} {s t : State} (hc : configOk s.cfg = true) (h : s.inv = true)
    (ht : hostWrite a v s = .next t) : t.inv = true := by
  unfold hostWrite at ht
  split at ht
  · exact writeOp_inv hc h ht
  · cases ht
    rw [writeLoc_inv, h]

theorem takeTurn_inv {turn : Turn} {s t : State} (hc : configOk s.cfg = true) (h : s.inv = true)
    (ht : takeTurn turn s = .next t) : t.inv = true := by
  cases turn with
  | hostRead a => cases ht; exact h
  | hostWrite a v => exact hostWrite_inv hc h ht
  | reset => cases ht; rfl
  | sequencer => cases ht; exact sequencerStep_inv hc h

/-- Settles O20: a step is a turn or a sequencer step, and each keeps the invariant. -/
theorem stepKeepsInvariant : Obligations.StepKeepsInvariant := by
  intro s t h ht
  unfold step at ht
  split at ht
  case isTrue hc =>
    split at ht
    case h_1 => cases ht; exact sequencerStep_inv hc h
    case h_2 turn rest _ => exact takeTurn_inv (s := { s with schedule := rest }) hc h ht
  case isFalse => cases ht

end Sys2Proof.Machine

/-! The family 10_state, the sequencer: what a step leaves to the host (R21, R33, R73), RST_N (R35), and CODE and RESULT
(R23, R30, R285). Internal computation either goes on to a primitive, with CODE and RESULT as they were, or it finishes
with RESULT saying whether CODE is Ok: `Concludes`, one lemma per function. -/

namespace Sys2Proof.Machine

/-! What a step leaves to the host. -/

/-- A sequencer step touches the chip port and what internal computation writes, and nothing else. -/
theorem sequencerStep_outside (s : State) : (sequencerStep s).outside =
    { s.outside with
      history := (sequencerStep s).history
      answers := (sequencerStep s).answers
      rstN := (sequencerStep s).rstN } := by
  cases hp : s.pos with
  | idle => rw [sequencerStep_idle hp]; rfl
  | output o rest next =>
    have e := sequencerStep_outside_of_output hp
    obtain ⟨hhistory, hanswers, hrstN⟩ := port_eq_of_outside_eq e
    rw [e, hhistory, hanswers, hrstN]
    cases o <;> rfl
  | input a k =>
    have e := sequencerStep_outside_of_input hp
    obtain ⟨hhistory, hanswers, hrstN⟩ := port_eq_of_outside_eq e
    rw [e, hhistory, hanswers, hrstN]
    rfl

/-- Settles O22: what only the host writes lies outside internal computation and the chip port. -/
theorem sequencerLeavesHostInputs : Obligations.SequencerLeavesHostInputs := by
  intro s
  have outside := sequencerStep_outside s
  exact ⟨(congrArg State.op outside :), (congrArg State.argA outside :), (congrArg State.argB outside :),
    (congrArg State.argC outside :), (congrArg State.txbuf outside :), (congrArg State.cmpuid outside :),
    (congrArg State.key outside :), (congrArg State.exc outside :), (congrArg State.hostReads outside :),
    (congrArg State.epoch outside :)⟩

/-! CODE and RESULT. -/

/-- Where internal computation that began with CODE = `c` and RESULT = `r` may end: at a primitive with both as they
were, or finished with RESULT as the convention of R23 has it. -/
def Concludes (c : Status) (r : Bool) (t : State) : Prop :=
  (t.busy = true ∧ t.code = c ∧ t.result = r) ∨ (t.busy = false ∧ t.result = isOk t.code)

theorem isOk_of_ne {c : Status} (h : c ≠ .ok) : false = isOk c := (decide_eq_false h).symm

theorem finish_concludes {c : Status} {r : Bool} (h : r = isOk c) (c₀ : Status) (r₀ : Bool) (s : State) :
    Concludes c₀ r₀ (finish c r s) := .inr ⟨rfl, h⟩

theorem failCard_concludes {c : Status} (h : c ≠ .ok) (c₀ : Status) (r₀ : Bool) (s : State) :
    Concludes c₀ r₀ (failCard c s) := finish_concludes (isOk_of_ne h) _ _ _

theorem toOutput_concludes (o : Out) (rest : List Out) (next : After) (s : State) :
    Concludes s.code s.result (toOutput o rest next s) := .inl ⟨rfl, rfl, rfl⟩

theorem toInput_concludes (a : Byte) (k : Await) (s : State) : Concludes s.code s.result (toInput a k s) :=
  .inl ⟨rfl, rfl, rfl⟩

/-! The commands as a procedure returns to them. -/

theorem ispresReturned_concludes (c : Status) (s : State) : Concludes s.code s.result (ispresReturned c s) := by
  refine finish_concludes ?_ _ _ _
  split_ifs with hp hc
  · exact hp
  · simpa [isOk] using hp
  · simpa [← isOk_of_ne hc] using hp

theorem waitPresentReturned_concludes (c : Status) (s : State) :
    Concludes s.code s.result (waitPresentReturned c s) := by
  unfold waitPresentReturned
  split <;> exact toOutput_concludes _ _ _ _

theorem waitUidReturned_concludes (c : Status) (s : State) : Concludes s.code s.result (waitUidReturned c s) := by
  unfold waitUidReturned
  split
  · exact finish_concludes rfl _ _ _
  · exact toOutput_concludes _ _ _ _

theorem selectReturned_concludes (c : Status) (s : State) : Concludes s.code s.result (selectReturned c s) := by
  unfold selectReturned
  split_ifs with hc
  · exact failCard_concludes hc _ _ _
  · exact failCard_concludes (by decide) _ _ _
  · exact toOutput_concludes _ _ _ _

theorem selectVerified_concludes (c : Status) (s : State) : Concludes s.code s.result (selectVerified c s) := by
  unfold selectVerified
  split_ifs with hc
  · exact finish_concludes rfl _ _ _
  · exact failCard_concludes hc _ _ _

theorem authReturned_concludes (c : Status) (s : State) : Concludes s.code s.result (authReturned c s) := by
  unfold authReturned
  split
  · exact toInput_concludes _ _ _
  · exact finish_concludes rfl _ _ _

theorem rdblkReturned_concludes (c : Status) (s : State) : Concludes s.code s.result (rdblkReturned c s) := by
  unfold rdblkReturned
  split_ifs with hc
  · exact failCard_concludes hc _ _ _
  · exact failCard_concludes (by decide) _ _ _
  · exact toOutput_concludes _ _ _ _

theorem rdblkVerified_concludes (c : Status) (s : State) : Concludes s.code s.result (rdblkVerified c s) := by
  unfold rdblkVerified
  split_ifs with hc
  · exact finish_concludes rfl _ _ _
  · exact failCard_concludes hc _ _ _

theorem wrblkCommandReturned_concludes (c : Status) (s : State) :
    Concludes s.code s.result (wrblkCommandReturned c s) := by
  unfold wrblkCommandReturned
  split_ifs with hc
  · exact failCard_concludes hc _ _ _
  · exact toOutput_concludes _ _ _ _
  · exact failCard_concludes (by decide) _ _ _

theorem wrblkDataReturned_concludes (c : Status) (s : State) :
    Concludes s.code s.result (wrblkDataReturned c s) := by
  unfold wrblkDataReturned
  split_ifs with hc
  · exact failCard_concludes hc _ _ _
  · exact finish_concludes rfl _ _ _
  · exact failCard_concludes (by decide) _ _ _

theorem initBooted_concludes (c : Status) (s : State) : Concludes s.code s.result (initBooted c s) := by
  unfold initBooted
  split_ifs with hc
  · exact toInput_concludes _ _ _
  · exact finish_concludes (isOk_of_ne hc) _ _ _

theorem selftestBooted_concludes (c : Status) (s : State) : Concludes s.code s.result (selftestBooted c s) := by
  unfold selftestBooted
  split_ifs with hc
  · exact toOutput_concludes _ _ _ _
  · exact finish_concludes (isOk_of_ne hc) _ _ _

theorem selftestJudged_concludes (xs : List Byte) (s : State) : Concludes s.code s.result (selftestJudged xs s) := by
  refine finish_concludes ?_ _ _ _
  split_ifs with hp
  · exact hp
  · simpa [isOk] using hp

/-! The procedures as they return to their callers. -/

theorem communicateReturns_concludes (caller : CommCaller) (c : Status) (s : State) :
    Concludes s.code s.result (communicateReturns caller c s) := by
  cases caller with
  | comm => exact finish_concludes rfl _ _ _
  | ispres => exact ispresReturned_concludes c s
  | getuid => exact finish_concludes rfl _ _ _
  | waitPresent => exact waitPresentReturned_concludes c s
  | waitUid => exact waitUidReturned_concludes c s
  | select => exact selectReturned_concludes c s
  | auth => exact authReturned_concludes c s
  | rdblk => exact rdblkReturned_concludes c s
  | wrblkCommand => exact wrblkCommandReturned_concludes c s
  | wrblkData => exact wrblkDataReturned_concludes c s

theorem verifyReturns_concludes (caller : VerifyCaller) (c : Status) (s : State) :
    Concludes s.code s.result (verifyReturns caller c s) := by
  cases caller with
  | select => exact selectVerified_concludes c s
  | rdblk => exact rdblkVerified_concludes c s

theorem calculateCRCReturns_concludes (caller : CrcCaller) (c : Status) (s : State) :
    Concludes s.code s.result (calculateCRCReturns caller c s) := by
  cases caller with
  | crc => exact finish_concludes rfl _ _ _
  | verify k verifier => exact verifyReturns_concludes _ _ _
  | send body sender =>
    simp only [calculateCRCReturns]
    split
    · exact toOutput_concludes _ _ _ _
    · exact communicateReturns_concludes _ _ _

theorem waitForBootUpReturns_concludes (caller : BootCaller) (c : Status) (s : State) :
    Concludes s.code s.result (waitForBootUpReturns caller c s) := by
  cases caller with
  | plain => exact finish_concludes rfl _ _ _
  | init => exact initBooted_concludes c s
  | selftest => exact selftestBooted_concludes c s

theorem checkErrorReturns_concludes (caller : ErrorCaller) (c : Status) (s : State) :
    Concludes s.code s.result (checkErrorReturns caller c s) := by
  cases caller with
  | chkerr => exact finish_concludes rfl _ _ _
  | communicate cap sender =>
    simp only [checkErrorReturns]
    split
    · exact toInput_concludes _ _ _
    · exact communicateReturns_concludes _ _ _

theorem bulkReturns_concludes (caller : BulkCaller) (xs : List Byte) (s : State) :
    Concludes s.code s.result (bulkReturns caller xs s) := by
  cases caller with
  | rregn => exact finish_concludes rfl _ _ _
  | communicate c sender => exact communicateReturns_concludes sender c (receive xs s)
  | selftest => exact toOutput_concludes _ _ _ _

/-! The polls and the bulk read. -/

theorem bootPolled_concludes (k : Nat) (caller : BootCaller) (v : Byte) (s : State) :
    Concludes s.code s.result (bootPolled k caller v s) := by
  unfold bootPolled
  split_ifs
  · exact waitForBootUpReturns_concludes _ _ _
  · exact toInput_concludes _ _ _
  · exact waitForBootUpReturns_concludes _ _ _

theorem comPolled_concludes (k : Nat) (cmd : BitVec 4) (cap : Nat) (caller : CommCaller) (v : Byte) (s : State) :
    Concludes s.code s.result (comPolled k cmd cap caller v s) := by
  unfold comPolled
  split_ifs
  · exact communicateReturns_concludes _ _ _
  · exact toInput_concludes _ _ _
  · exact communicateReturns_concludes _ _ _
  · exact toInput_concludes _ _ _

theorem levelRead_concludes (cap : Nat) (c : Status) (caller : CommCaller) (v : Byte) (s : State) :
    Concludes s.code s.result (levelRead cap c caller v s) := by
  unfold levelRead
  split
  · exact bulkReturns_concludes _ _ _
  · exact toInput_concludes _ _ _

theorem crcPolled_concludes (k : Nat) (caller : CrcCaller) (v : Byte) (s : State) :
    Concludes s.code s.result (crcPolled k caller v s) := by
  unfold crcPolled
  split_ifs
  · exact toInput_concludes _ _ _
  · exact calculateCRCReturns_concludes _ _ _
  · exact toInput_concludes _ _ _

theorem fillPolled_concludes (k : Nat) (v : Byte) (s : State) : Concludes s.code s.result (fillPolled k v s) := by
  unfold fillPolled
  split_ifs
  · exact toOutput_concludes _ _ _ _
  · exact toOutput_concludes _ _ _ _
  · exact toInput_concludes _ _ _

theorem bulkRead_concludes (a : Byte) (left : Nat) (got : List Byte) (caller : BulkCaller) (v : Byte) (s : State) :
    Concludes s.code s.result (bulkRead a left got caller v s) := by
  cases left with
  | zero => exact bulkReturns_concludes _ _ _
  | succ left => exact toInput_concludes _ _ _

/-! Everything that follows a primitive. -/

theorem proceed_concludes (next : After) (s : State) : Concludes s.code s.result (proceed next s) := by
  cases next with
  | done | fillTimeOut | antennaOff => exact finish_concludes rfl _ _ _
  | exchange => exact toOutput_concludes _ _ _ _
  | pollBoot | startSend | pollCom | pollCrc | pollFill | capture => exact toInput_concludes _ _ _
  | judge xs => exact selftestJudged_concludes xs s

theorem answered_concludes (k : Await) (v : Byte) (s : State) : Concludes s.code s.result (answered k v s) := by
  cases k with
  | rreg | authStatus => exact finish_concludes rfl _ _ _
  | bulk a left got caller => exact bulkRead_concludes a left got caller v s
  | setBits | clearBits => exact toOutput_concludes _ _ _ _
  | boot k caller => exact bootPolled_concludes k caller v s
  | error caller => exact checkErrorReturns_concludes caller _ s
  | comIrq k cmd cap caller => exact comPolled_concludes k cmd cap caller v s
  | level cap c caller => exact levelRead_concludes cap c caller v s
  | divIrq k caller => exact crcPolled_concludes k caller v s
  | crcHigh => exact toInput_concludes _ _ _
  | crcLow hi caller => exact calculateCRCReturns_concludes caller .ok (storeCrc hi v s)
  | fill k => exact fillPolled_concludes k v s

theorem afterOutput_concludes (rest : List Out) (next : After) (s : State) :
    Concludes s.code s.result (afterOutput rest next s) := by
  cases rest with
  | nil => exact proceed_concludes next s
  | cons o rest => exact toOutput_concludes _ _ _ _

/-- While a command runs, a sequencer step goes on with CODE and RESULT as they were, or finishes by R23's convention. -/
theorem sequencerStep_concludes {s : State} (h : s.busy = true) : Concludes s.code s.result (sequencerStep s) := by
  unfold sequencerStep
  split
  case h_1 hp => rw [busy_of_pos s hp] at h; cases h
  case h_2 o rest next _ =>
    have concluded := afterOutput_concludes rest next (drive o (leavePosition s))
    rwa [drive_code, drive_result] at concluded
  case h_3 a k _ => exact answered_concludes k (answerTo a s) (afterRead a (leavePosition s))

/-- Settles O23: a step that does not finish leaves CODE and RESULT. -/
theorem codeAndResultHeldUntilFinish : Obligations.CodeAndResultHeldUntilFinish := by
  intro s hbusy
  by_cases hs : s.busy = true
  · rcases sequencerStep_concludes hs with ⟨-, held⟩ | ⟨hidle, -⟩
    · exact held
    · rw [hidle] at hbusy; cases hbusy
  · rw [sequencerStep_idle ((busy_eq_false_iff s).1 (Bool.eq_false_iff.2 hs))]
    exact ⟨rfl, rfl⟩

/-- Settles O24: a step that finishes does so by R23's convention. -/
theorem resultIsOkAtFinish : Obligations.ResultIsOkAtFinish := by
  intro s hs hidle
  rcases sequencerStep_concludes hs with ⟨hbusy, -⟩ | ⟨-, hresult⟩
  · rw [hidle] at hbusy; cases hbusy
  · rw [hresult, isOk, decide_eq_true_iff]

end Sys2Proof.Machine

/-! The family 10_state, the host's side: what the acceptance of a command writes (R30, R27, R160), RST_N (R35), the
host's writes (R31, R62, R97, R284), and the numbers of the status registers (R22 to R32). Of the state `startOf` writes
only RESULT, CODE, PSTATE, RXLEN and the position (`startOf_frame`); each of them has a lemma of its own. -/

namespace Sys2Proof.Machine

/-! Acceptance. -/

/-- RREGN and WREGN by their count: no bus step for 0. -/
theorem startOf_rregn (a n : Byte) (s : State) : startOf (.rregn a n) s =
    if n = 0 then finish .ok true (receive [] s) else startBulkRead a (n.toNat - 1) .rregn s := by
  split
  case isTrue h => exact startOf_rregn_zero (by simp [h])
  case isFalse h =>
    have : n.toNat ≠ 0 := fun h0 => h (BitVec.eq_of_toNat_eq h0)
    exact startOf_rregn_succ (by omega)

theorem startOf_wregn (a n : Byte) (s : State) : startOf (.wregn a n) s =
    if n = 0 then finish .ok true s
    else toOutput (.write a s.txbuf[0]) (writesOf a (firstBytes n.toNat s.txbuf).tail) .done s := by
  split
  case isTrue h => exact startOf_wregn_nil (by simp [h, firstBytes])
  case isFalse h =>
    have : n.toNat ≠ 0 := fun h0 => h (BitVec.eq_of_toNat_eq h0)
    have hlen : 0 < (firstBytes n.toNat s.txbuf).length := by rw [firstBytes_length]; omega
    refine startOf_wregn_cons ((List.cons_head_tail (List.ne_nil_of_length_pos hlen)).symm.trans ?_)
    simp [firstBytes, List.head_eq_getElem]

/-- The only fields that a command writes up to its first primitive. -/
theorem startOf_frame (i : Instr) (s : State) : startOf i s =
    { s with
      result := (startOf i s).result
      code := (startOf i s).code
      pstate := (startOf i s).pstate
      rxlen := (startOf i s).rxlen
      pos := (startOf i s).pos } := by
  cases i with
  | rregn a n =>
    rw [startOf_rregn]
    split
    · simp [finish, receive]
    · rfl
  | wregn a n => rw [startOf_wregn]; split <;> rfl
  | ant on => simp only [startOf]; split <;> rfl
  | _ => rfl

/-- The command has a bus step, so that it is still running after its acceptance (R30). -/
def hasBusStep : Instr → Bool
  | .chkbcc | .uideq => false
  | .rregn _ n | .wregn _ n => decide (n ≠ 0)
  | _ => true

/-- PSTATE after acceptance (R27), from what it was. -/
def acceptedPState (p : PState) : Instr → PState
  | .hrst | .srst | .init | .selftest => .idle
  | .getuid => .uidPending
  | _ => p

/-- RXLEN after acceptance (R111, R160), from what it was. -/
def acceptedRxlen (len : Nat) : Instr → Nat
  | .comm _ _ _ | .auth _ _ => 0
  | .rregn _ n => if n = 0 then 0 else len
  | _ => len

theorem startOf_busy (i : Instr) (s : State) : (startOf i s).busy = hasBusStep i := by
  cases i with
  | rregn a n =>
    rw [startOf_rregn]
    split
    case isTrue h => rw [h]; rfl
    case isFalse h => exact (decide_eq_true h).symm
  | wregn a n =>
    rw [startOf_wregn]
    split
    case isTrue h => rw [h]; rfl
    case isFalse h => exact (decide_eq_true h).symm
  | ant on => simp only [startOf]; split <;> rfl
  | _ => rfl

/-- A command that is still running after its acceptance has not touched CODE and RESULT. -/
theorem startOf_held {i : Instr} {s : State} (h : (startOf i s).busy = true) :
    (startOf i s).code = s.code ∧ (startOf i s).result = s.result := by
  cases i with
  | chkbcc | uideq => cases h
  | rregn a n =>
    by_cases hn : n = 0
    · rw [startOf_rregn, if_pos hn] at h
      cases h
    · rw [startOf_rregn, if_neg hn]
      exact ⟨rfl, rfl⟩
  | wregn a n =>
    by_cases hn : n = 0
    · rw [startOf_wregn, if_pos hn] at h
      cases h
    · rw [startOf_wregn, if_neg hn]
      exact ⟨rfl, rfl⟩
  | ant on => simp only [startOf]; split <;> exact ⟨rfl, rfl⟩
  | _ => exact ⟨rfl, rfl⟩

theorem startOf_pstate (i : Instr) (s : State) : (startOf i s).pstate = acceptedPState s.pstate i := by
  cases i with
  | rregn a n => rw [startOf_rregn]; split <;> rfl
  | wregn a n => rw [startOf_wregn]; split <;> rfl
  | ant on => simp only [startOf]; split <;> rfl
  | _ => rfl

theorem startOf_rxlen (i : Instr) (s : State) : (startOf i s).rxlen = acceptedRxlen s.rxlen i := by
  cases i with
  | rregn a n => rw [startOf_rregn, acceptedRxlen]; split <;> rfl
  | wregn a n => rw [startOf_wregn]; split <;> rfl
  | ant on => simp only [startOf]; split <;> rfl
  | _ => rfl

/-- Only 0x00 and 0x04 to 0x07 of the host's addresses read OP, STATUS, CODE, PSTATE or RXLEN (R63). -/
theorem hostRead_frame {a : Byte} (hop : a.toNat ≠ 0x00) (hstatus : a.toNat < 0x04 ∨ 0x07 < a.toNat) (s : State)
    (op : Byte) (result : Bool) (code : Status) (pstate : PState) (rxlen : Nat) (pos : Pos) :
    hostRead a { s with op, result, code, pstate, rxlen, pos } = hostRead a s := by
  have placed := locate_address a
  unfold hostRead
  cases hl : locate a with
  | op | status | code | pstate | rxlen =>
    simp only [hl, HostLoc.address, reduceCtorEq, Option.some.injEq, false_or] at placed
    omega
  | _ => rfl

/-- Settles O8: `startOf` field by field. -/
theorem legalCommandIsAccepted : Obligations.LegalCommandIsAccepted := by
  intro i s hb hw
  let issued : State := { s with op := i.opcode }
  have frame := startOf_frame i issued
  refine ⟨startOf i issued, exec_accepts hb hw, (congrArg State.op frame :), startOf_busy i issued, startOf_held,
    startOf_pstate i issued, startOf_rxlen i issued, (congrArg State.argA frame :), (congrArg State.argB frame :),
    (congrArg State.argC frame :), (congrArg State.exc frame :), (congrArg State.txbuf frame :),
    (congrArg State.rxbuf frame :), (congrArg State.uid frame :), (congrArg State.cmpuid frame :),
    (congrArg State.key frame :), (congrArg State.crcres frame :), (congrArg State.rstN frame :),
    (congrArg State.history frame :), (congrArg State.answers frame :), (congrArg State.cfg frame :),
    (congrArg State.schedule frame :), (congrArg State.hostReads frame :), (congrArg State.epoch frame :), ?_⟩
  intro a hop hstatus
  exact (congrArg (hostRead a) frame).trans (hostRead_frame hop hstatus s _ _ _ _ _ _)

/-! RST_N. -/

/-- A position with a pin belongs to HRST or INIT (R35). -/
theorem drivesRstN_of_pin {s : State} {l : Bool} {rest : List Out} {next : After} (h : s.inv = true)
    (hp : s.pos = .output (.pin l) rest next) : drivesRstN s = true := by
  obtain ⟨-, -, -, hpos⟩ := (inv_iff s).1 h
  simp only [hp, posOk, Bool.and_eq_true] at hpos
  exact hpos.1.1

theorem exec_rstN {i : Instr} {s t : State} (h : exec i s = .next t) : t.rstN = s.rstN := by
  rw [exec_eq] at h
  rcases issue_cases i.opcode (i.wellFormed s.cfg) (startOf i) s with ⟨-, e⟩ | ⟨-, -, e⟩ | ⟨-, -, e⟩ <;>
    obtain rfl := Host.Outcome.next.inj (e.symm.trans h)
  · exact raiseException_rstN _ _
  · exact (congrArg State.rstN (startOf_frame i { s with op := i.opcode }) :)
  · exact raiseException_rstN _ _

/-- Settles O27: of the primitives only a pin drives RST_N, and no meaning does. -/
theorem rstNOnlyByHrstAndInit : Obligations.RstNOnlyByHrstAndInit := by
  refine ⟨fun s hinv hhrst hinit => ?_, fun i s t h => exec_rstN h⟩
  obtain ⟨hidle, hwrite, -, hread⟩ := oneEventPerSequencerStep s
  cases hp : s.pos with
  | idle => rw [sequencerStep_idle hp]
  | input a k => exact (hread a k hp).2.2
  | output o rest next =>
    cases o with
    | write a v => exact (hwrite a v rest next hp).2.2
    | pin l =>
      have driven := drivesRstN_of_pin hinv hp
      simp only [drivesRstN, Bool.or_eq_true, beq_iff_eq] at driven
      exact absurd driven (not_or.2 ⟨hhrst, hinit⟩)

/-! Host writes. -/

theorem hostWrite_at_op {a : Byte} (h : locate a = .op) (v : Byte) (s : State) : hostWrite a v s = writeOp v s := by
  simp [hostWrite, h]

theorem hostWrite_elsewhere {a : Byte} (h : locate a ≠ .op) (v : Byte) (s : State) :
    hostWrite a v s = .next (writeLoc (locate a) v s) := by
  unfold hostWrite
  split
  · contradiction
  · rfl

theorem storeUnlessBusy_busy {s : State} (h : s.busy = true) (store : State → State) :
    storeUnlessBusy store s = raiseException .cmdWhileBusy s := if_pos h

theorem storeUnlessBusy_idle {s : State} (h : s.busy = false) (store : State → State) :
    storeUnlessBusy store s = store s := if_neg (by simp [h])

theorem writeLoc_busy {l : HostLoc} {s : State} (hl : l.stores = true) (h : s.busy = true) (v : Byte) :
    writeLoc l v s = raiseException .cmdWhileBusy s := by
  cases l with
  | argA | argB | argC | txbuf | uid | cmpuid | key => simp only [writeLoc, storeUnlessBusy_busy h]
  | op | status | code | pstate | rxlen | exc | rxbuf | crcres | reserved => cases hl

theorem writeLoc_ignores {l : HostLoc} (hl : l.ignores = true) (v : Byte) (s : State) : writeLoc l v s = s := by
  cases l with
  | status | code | pstate | rxlen | rxbuf | crcres | reserved => rfl
  | op | argA | argB | argC | exc | txbuf | uid | cmpuid | key => cases hl

/-- While a command runs, a write to an input address is dropped with CmdWhileBusy (R31, R252). -/
theorem hostWrite_busy {a : Byte} {s : State} (ha : isInputAddr a) (h : s.busy = true) (v : Byte) :
    hostWrite a v s = .next (raiseException .cmdWhileBusy s) := by
  by_cases h0 : a.toNat = 0x00
  · rw [hostWrite_at_op (locate_op h0), writeOp, if_pos h]
  · have stores := locate_stores a ha h0
    rw [hostWrite_elsewhere (by intro e; rw [e] at stores; cases stores), writeLoc_busy stores h]

theorem hostWrite_ignored {a : Byte} (ha : isReadOnlyAddr a ∨ isReservedAddr a) (v : Byte) (s : State) :
    hostWrite a v s = .next s := by
  have ignores := locate_ignores a ha
  rw [hostWrite_elsewhere (by intro e; rw [e] at ignores; cases ignores), writeLoc_ignores ignores]

/-- Settles O10: the input addresses, EXC, and the rest. -/
theorem writesWhileBusyAreDropped : Obligations.WritesWhileBusyAreDropped := by
  intro s a v
  refine ⟨fun hb ha => ?_, fun ha => ?_, fun ha => hostWrite_ignored ha v s⟩
  · rw [hostWrite_busy ha hb, raiseException_eq]
  · have located := locate_exc ha
    rw [hostWrite_elsewhere (by simp [located]), located]
    rfl

/-! Issuing by host writes. -/

theorem step_hostWrite {a v : Byte} {turns : List Turn} {s : State} (hc : configOk s.cfg = true)
    (hs : s.schedule = .hostWrite a v :: turns) : step s = hostWrite a v { s with schedule := turns } := by
  simp [step, hc, hs, takeTurn]

theorem writeOp_decodes {v : Byte} {s : State} {i : Instr} {rest : List Byte}
    (h : decodeBytes [v, s.argA, s.argB, s.argC] = .ok (i, rest)) : writeOp v s = exec i s := by
  unfold writeOp
  split
  case isTrue hb => rw [exec_busy i hb]
  case isFalse => rw [issuedBytes, h]

/-- Settles O5: the turn is a write to OP, which runs what the four bytes decode to. -/
theorem stepRunsDecodedCommand : Obligations.StepRunsDecodedCommand := by
  intro s v turns i rest hc hs hdecode
  rw [step_hostWrite hc hs, hostWrite_at_op (locate_op rfl)]
  exact writeOp_decodes hdecode

/-- The fields of a command decode to it. -/
theorem decodeFields_operands (i : Instr) : decodeFields i.opcode i.operandA i.operandB i.operandC = .ok i := by
  cases i <;> rfl

theorem step_writes_argA {s : State} {v : Byte} {turns : List Turn} (hc : configOk s.cfg = true)
    (hb : s.busy = false) (hs : s.schedule = .hostWrite 0x01 v :: turns) :
    step s = .next { s with argA := v, schedule := turns } := by
  rw [step_hostWrite hc hs]
  exact congrArg Host.Outcome.next
    (storeUnlessBusy_idle (s := { s with schedule := turns }) hb fun s => { s with argA := v })

theorem step_writes_argB {s : State} {v : Byte} {turns : List Turn} (hc : configOk s.cfg = true)
    (hb : s.busy = false) (hs : s.schedule = .hostWrite 0x02 v :: turns) :
    step s = .next { s with argB := v, schedule := turns } := by
  rw [step_hostWrite hc hs]
  exact congrArg Host.Outcome.next
    (storeUnlessBusy_idle (s := { s with schedule := turns }) hb fun s => { s with argB := v })

theorem step_writes_argC {s : State} {v : Byte} {turns : List Turn} (hc : configOk s.cfg = true)
    (hb : s.busy = false) (hs : s.schedule = .hostWrite 0x03 v :: turns) :
    step s = .next { s with argC := v, schedule := turns } := by
  rw [step_hostWrite hc hs]
  exact congrArg Host.Outcome.next
    (storeUnlessBusy_idle (s := { s with schedule := turns }) hb fun s => { s with argC := v })

/-- A run that begins with a step to `t` goes on from `t`. -/
theorem run_succ {s t : State} (h : step s = .next t) (k : Nat) :
    Host.Core.run Sys2Proof.core (k + 1) s = Host.Core.run Sys2Proof.core k t := by
  have : Sys2Proof.core.step s = .next t := h
  simp only [Host.Core.run, this]

/-- Settles O7: three stores, then the step of O5. -/
theorem assembledWritesIssueCommand : Obligations.AssembledWritesIssueCommand := by
  intro i s turns hc hb hs
  obtain ⟨u, hu⟩ := exec_next i
    { s with argA := i.operandA, argB := i.operandB, argC := i.operandC, schedule := turns }
  have issues := stepRunsDecodedCommand
    { s with argA := i.operandA, argB := i.operandB, argC := i.operandC, schedule := .hostWrite 0x00 i.opcode :: turns }
    i.opcode turns i [] hc rfl (by rw [decodeBytes_cons, decodeFields_operands])
  rw [hu]
  calc
    _ = _ := run_succ (step_writes_argA hc hb hs) 3
    _ = _ := run_succ (step_writes_argB (by exact hc) (by exact hb) rfl) 2
    _ = _ := run_succ (step_writes_argC (by exact hc) (by exact hb) rfl) 1
    _ = _ := run_succ (issues.trans hu) 0

/-! The numbers of the status registers. -/

theorem statusRegister_bits (s : State) : (statusRegister s).getLsbD 0 = s.busy ∧
    (statusRegister s).getLsbD 1 = s.result ∧ (statusRegister s).toNat < 4 := by
  unfold statusRegister
  cases s.busy <;> cases s.result <;> decide

theorem statusByte_le (c : Status) : (statusByte c).toNat ≤ 10 := by cases c <;> decide

theorem pstateByte_le (p : PState) : (pstateByte p).toNat ≤ 6 := by cases p <;> decide

theorem excByte_le (e : Option Cause) : (excByte e).toNat ≤ 3 := by
  cases e with
  | none => decide
  | some c => cases c <;> decide

/-- Settles O15: each register's number, and the tables as they stand. -/
theorem statusRegisterNumbers : Obligations.StatusRegisterNumbers := by
  refine ⟨fun s => ⟨statusRegister_bits s, statusByte_le _, pstateByte_le _, excByte_le _, fun h => ?_⟩, rfl, rfl, rfl⟩
  obtain ⟨hrxlen, -⟩ := (inv_iff s).1 h
  exact (BitVec.toNat_ofNat ..).trans_le ((Nat.mod_le _ _).trans hrxlen)

end Sys2Proof.Machine

/-! The family 20_memory, the host address map (R61 to R64) and configurations (R76). What a store to one location does
to the reads of all locations is said once, over locations, and carried over to addresses. -/

namespace Sys2Proof.Machine

/-! The map, read from locations to addresses. -/

/-- Each location but the reserved ones is found at its own address. -/
theorem locate_of_address {l : HostLoc} {n : Nat} (h : l.address = some n) : locate (BitVec.ofNat 8 n) = l := by
  cases l with
  | txbuf i | rxbuf i | uid i | cmpuid i | key i | crcres i =>
    obtain rfl := Option.some.inj h
    revert i
    decide
  | op | argA | argB | argC | status | code | pstate | rxlen | exc =>
    obtain rfl := Option.some.inj h
    rfl
  | reserved => cases h

/-- A host read at the address of a location returns what stands there (R61, R63). -/
theorem hostRead_of_address {l : HostLoc} {n : Nat} (h : l.address = some n) (s : State) :
    hostRead (BitVec.ofNat 8 n) s = readLoc l s := by
  rw [hostRead, locate_of_address h]

theorem hostRead_reserved {a : Byte} (h : isReservedAddr a) (s : State) : hostRead a s = 0x00 := by
  rw [hostRead, locate_reserved a h, readLoc]

theorem statusRegister_eq_add (s : State) :
    statusRegister s = (if s.busy then 1 else 0) + (if s.result then 2 else 0) := by
  unfold statusRegister
  cases s.busy <;> cases s.result <;> rfl

/-- With a legal configuration and a turn scheduled, a step is that turn. -/
theorem step_turn {turn : Turn} {turns : List Turn} {s : State} (hc : configOk s.cfg = true)
    (hs : s.schedule = turn :: turns) : step s = takeTurn turn { s with schedule := turns } := by
  simp [step, hc, hs]

/-- Settles O14: each clause is the read of one location at its address. -/
theorem hostReadsByTheMap : Obligations.HostReadsByTheMap := by
  intro s
  exact ⟨fun a turns hc hs => step_turn hc hs,
    hostRead_of_address (l := .op) rfl s,
    hostRead_of_address (l := .argA) rfl s,
    hostRead_of_address (l := .argB) rfl s,
    hostRead_of_address (l := .argC) rfl s,
    (hostRead_of_address (l := .status) rfl s).trans (statusRegister_eq_add s),
    hostRead_of_address (l := .code) rfl s,
    hostRead_of_address (l := .pstate) rfl s,
    hostRead_of_address (l := .rxlen) rfl s,
    hostRead_of_address (l := .exc) rfl s,
    fun i h => hostRead_of_address (l := .txbuf ⟨i, h⟩) rfl s,
    fun i h => hostRead_of_address (l := .rxbuf ⟨i, h⟩) rfl s,
    fun i h => hostRead_of_address (l := .uid ⟨i, h⟩) rfl s,
    fun i h => hostRead_of_address (l := .cmpuid ⟨i, h⟩) rfl s,
    fun i h => hostRead_of_address (l := .key ⟨i, h⟩) rfl s,
    fun i h => hostRead_of_address (l := .crcres ⟨i, h⟩) rfl s,
    fun a ha => hostRead_reserved ha s⟩

/-- Settles O17: the location `reserved` reads as 0 and ignores writes. -/
theorem reservedAddressesDoNothing : Obligations.ReservedAddressesDoNothing :=
  fun s _ v ha => ⟨hostRead_reserved ha s, hostWrite_ignored (.inr ha) v s⟩

/-! Stores. -/

section
variable {l : HostLoc} {s : State} (hl : l.stores = true) (hb : s.busy = false) (v : Byte)
include hl hb

/-- The only fields that a store writes. -/
theorem writeLoc_frame : writeLoc l v s =
    { s with
      argA := (writeLoc l v s).argA
      argB := (writeLoc l v s).argB
      argC := (writeLoc l v s).argC
      txbuf := (writeLoc l v s).txbuf
      uid := (writeLoc l v s).uid
      cmpuid := (writeLoc l v s).cmpuid
      key := (writeLoc l v s).key } := by
  cases l with
  | argA | argB | argC | txbuf | uid | cmpuid | key => simp only [writeLoc, storeUnlessBusy_idle hb]
  | op | status | code | pstate | rxlen | exc | rxbuf | crcres | reserved => cases hl

theorem readLoc_writeLoc_same : readLoc l (writeLoc l v s) = v := by
  cases l with
  | argA | argB | argC => simp only [writeLoc, readLoc, storeUnlessBusy_idle hb]
  | txbuf i | uid i | cmpuid i | key i =>
    simp only [writeLoc, readLoc, storeUnlessBusy_idle hb]
    exact Vector.getElem_set_self i.isLt
  | op | status | code | pstate | rxlen | exc | rxbuf | crcres | reserved => cases hl

/-- A store reaches no location but its own: not another field, nor another byte of its buffer. -/
theorem readLoc_writeLoc_other {m : HostLoc} (hne : m ≠ l) : readLoc m (writeLoc l v s) = readLoc m s := by
  cases l with
  | argA | argB | argC =>
    simp only [writeLoc, storeUnlessBusy_idle hb]
    cases m <;> simp [readLoc, statusRegister, State.busy] at hne ⊢
  | txbuf i | uid i | cmpuid i | key i =>
    simp only [writeLoc, storeUnlessBusy_idle hb]
    cases m <;> simp [readLoc, statusRegister, State.busy, Fin.ext_iff] at hne ⊢
    -- what is left is another byte of the same buffer
    exact Vector.getElem_set_ne i.isLt _ (Ne.symm hne)
  | op | status | code | pstate | rxlen | exc | rxbuf | crcres | reserved => cases hl

end

/-- Settles O16: a store at the location of the address, which no other address shares. -/
theorem hostWriteStoresOneByte : Obligations.HostWriteStoresOneByte := by
  intro s a v hb
  refine ⟨fun ha h0 => ?_, fun ha => hostWrite_ignored ha v s⟩
  have stores := locate_stores a ha h0
  have notOp : locate a ≠ .op := by intro e; rw [e] at stores; cases stores
  have notReserved : locate a ≠ .reserved := by intro e; rw [e] at stores; cases stores
  have frame := writeLoc_frame stores hb v
  refine ⟨writeLoc (locate a) v s, hostWrite_elsewhere notOp v s, readLoc_writeLoc_same stores hb v, fun b hba => ?_,
    (congrArg State.pos frame :), (congrArg State.rstN frame :), (congrArg State.history frame :),
    (congrArg State.cfg frame :), (congrArg State.schedule frame :), (congrArg State.answers frame :),
    (congrArg State.hostReads frame :), (congrArg State.epoch frame :)⟩
  exact readLoc_writeLoc_other stores hb v fun e => hba (locate_injective e.symm notReserved).symm

/-! Configurations. -/

theorem step_refuses {s : State} (h : ¬ configOk s.cfg = true) : step s = .refused .illFormedConfig := if_neg h

/-- Settles O28: each clause breaks one part of a legal configuration. -/
theorem illFormedConfigIsRefused : Obligations.IllFormedConfigIsRefused := by
  intro s
  refine ⟨fun ⟨a, ha, hout⟩ => step_refuses fun hc => ?_, fun hzeros => step_refuses fun hc => ?_⟩
  · obtain ⟨registers, -⟩ := (configOk_iff s.cfg).1 hc
    have inRange := of_decide_eq_true (registers a ha)
    omega
  · obtain ⟨-, -, -, -, -, zeros⟩ := (configOk_iff s.cfg).1 hc
    omega

end Sys2Proof.Machine

/-! The family 20_memory, the FIFO port (R74): WREGN and RREGN at any register, as a row of writes and as a
bulk read. -/

namespace Sys2Proof.Machine

/-- `completes_start`, where acceptance as such keeps the configuration and the schedule. -/
theorem completes_of_start {i : Instr} {s u : State} {n : Nat} (h : s.ready) (hw : i.wellFormed s.cfg = true)
    (hn : sequencerSteps n (startOf i { s with op := i.opcode }) = u) : CompletesIn i s n u :=
  completes_start h hw (congrArg State.cfg (startOf_frame i { s with op := i.opcode }) :)
    (congrArg State.schedule (startOf_frame i { s with op := i.opcode }) :) hn

/-- WREGN from its start writes the first bytes of TXBUF in order and finishes (R113). -/
theorem wregn_run {n : Byte} {s : State} (a : Byte) (hn : n.toNat ≤ 64) (idle : s.pos = .idle) :
    sequencerSteps n.toNat (startOf (.wregn a n) s) =
      finish .ok true (s.moved (writeEvents a (firstBytes n.toNat s.txbuf)) s.answers) := by
  have length := (firstBytes_length n.toNat s.txbuf).trans (Nat.min_eq_left hn)
  cases bytes : firstBytes n.toNat s.txbuf with
  | nil =>
    rw [startOf_wregn_nil bytes, ← length, bytes]
    exact congrArg (finish .ok true) s.moved_self.symm
  | cons x xs =>
    rw [startOf_wregn_cons bytes, ← length, bytes, List.length_cons, ← writesOf_length a xs,
      writes_run _ _ _ _ idle rfl (writesOf_all_isWrite a xs), ← writesOf_cons, writesOf_outEvent, proceed]

/-- RREGN from its start reads and stores its answers in order and finishes (R111). -/
theorem rregn_run {n : Byte} {s : State} {xs ys : List Byte} (a : Byte) (idle : s.pos = .idle)
    (answers : s.answers = xs ++ ys) (length : xs.length = n.toNat) :
    sequencerSteps n.toNat (startOf (.rregn a n) s) = finish .ok true (receive xs (s.moved (readEvents a xs) ys)) := by
  cases xs with
  | nil =>
    obtain rfl : s.answers = ys := answers
    rw [startOf_rregn_zero length.symm, ← length]
    exact congrArg (fun t => finish .ok true (receive [] t)) s.moved_self.symm
  | cons x xs =>
    rw [startOf_rregn_succ length.symm, ← length, List.length_cons, startBulkRead,
      bulk_run a .rregn xs ys [] x s idle answers]
    rfl

/-- Settles O35: the bytes that WREGN writes are the answers of RREGN, and as many as RXBUF holds. -/
theorem fifoLoopbackRoundTrip : Obligations.FifoLoopbackRoundTrip := by
  intro s ys ready answers
  have ⟨legal, _, quiet⟩ := ready
  have inRange : (isChipAddr s.cfg.regFifoData && isLength 64) = true := by
    rw [(legalConfig_of_configOk legal).regFifoData]; rfl
  have whole : firstBytes 64 s.txbuf = s.txbuf.toList := List.take_of_length_le (by simp)
  have full : storeBytes s.txbuf.toList s.rxbuf = s.txbuf :=
    Vector.toList_inj.1 (storeBytes_full _ _ Vector.length_toList)
  have writes := wregn_run (n := 64) (s := { s with op := 0x04 }) s.cfg.regFifoData (by decide)
    (State.ready_idle ready)
  rw [show (64 : Byte).toNat = 64 from rfl, whole] at writes
  refine ⟨_, _, completes_of_start ready inRange writes, rfl, rfl, rfl,
    completes_of_start ⟨legal, rfl, quiet⟩ inRange
      (rregn_run (n := 64) s.cfg.regFifoData rfl answers Vector.length_toList),
    rfl, rfl, rfl, full, rfl, Vector.length_toList, rfl⟩

end Sys2Proof.Machine

/-! The family 20_memory, host accesses beside a running command (R65, R70, R73). EXC, the log of host reads and the
schedule are the host's side of the state. The sequencer reads none of it: every function of a step commutes with
replacing it (`hostSide`), by computation where the function has no branch, and else branch by branch. While BUSY = 1 the
host's turns write nothing but that side. -/

namespace Sys2Proof.Machine

/-- The state with the host's side replaced: EXC, the log of host reads and the schedule. -/
def hostSide (e : Option Cause) (reads : List (Byte × Byte)) (turns : List Turn) (s : State) : State :=
  { s with exc := e, hostReads := reads, schedule := turns }

/-- A branch whose test does not read the host's side commutes with replacing it if both arms do. -/
theorem ite_hostSide {e : Option Cause} {reads : List (Byte × Byte)} {turns : List Turn} {p : Prop} {i j : Decidable p}
    {s₁ s₂ t₁ t₂ : State} (h₁ : t₁ = hostSide e reads turns s₁) (h₂ : t₂ = hostSide e reads turns s₂) :
    @ite _ p i t₁ t₂ = hostSide e reads turns (@ite _ p j s₁ s₂) := by
  obtain rfl := Subsingleton.elim i j
  split <;> assumption

section
variable (e : Option Cause) (reads : List (Byte × Byte)) (turns : List Turn) (s : State)

/-! The commands as a procedure returns to them. -/

theorem waitPresentReturned_hostSide (c : Status) :
    waitPresentReturned c (hostSide e reads turns s) = hostSide e reads turns (waitPresentReturned c s) :=
  ite_hostSide rfl rfl

theorem waitUidReturned_hostSide (c : Status) :
    waitUidReturned c (hostSide e reads turns s) = hostSide e reads turns (waitUidReturned c s) :=
  ite_hostSide rfl rfl

theorem selectReturned_hostSide (c : Status) :
    selectReturned c (hostSide e reads turns s) = hostSide e reads turns (selectReturned c s) :=
  ite_hostSide rfl (ite_hostSide rfl rfl)

theorem selectVerified_hostSide (c : Status) :
    selectVerified c (hostSide e reads turns s) = hostSide e reads turns (selectVerified c s) :=
  ite_hostSide rfl rfl

theorem authReturned_hostSide (c : Status) :
    authReturned c (hostSide e reads turns s) = hostSide e reads turns (authReturned c s) :=
  ite_hostSide rfl rfl

theorem rdblkReturned_hostSide (c : Status) :
    rdblkReturned c (hostSide e reads turns s) = hostSide e reads turns (rdblkReturned c s) :=
  ite_hostSide rfl (ite_hostSide rfl rfl)

theorem rdblkVerified_hostSide (c : Status) :
    rdblkVerified c (hostSide e reads turns s) = hostSide e reads turns (rdblkVerified c s) :=
  ite_hostSide rfl rfl

theorem wrblkCommandReturned_hostSide (c : Status) :
    wrblkCommandReturned c (hostSide e reads turns s) = hostSide e reads turns (wrblkCommandReturned c s) :=
  ite_hostSide rfl (ite_hostSide rfl rfl)

theorem wrblkDataReturned_hostSide (c : Status) :
    wrblkDataReturned c (hostSide e reads turns s) = hostSide e reads turns (wrblkDataReturned c s) :=
  ite_hostSide rfl (ite_hostSide rfl rfl)

theorem initBooted_hostSide (c : Status) :
    initBooted c (hostSide e reads turns s) = hostSide e reads turns (initBooted c s) :=
  ite_hostSide rfl rfl

theorem selftestBooted_hostSide (c : Status) :
    selftestBooted c (hostSide e reads turns s) = hostSide e reads turns (selftestBooted c s) :=
  ite_hostSide rfl rfl

/-! The procedures as they return to their callers. -/

theorem communicateReturns_hostSide (caller : CommCaller) (c : Status) :
    communicateReturns caller c (hostSide e reads turns s) =
      hostSide e reads turns (communicateReturns caller c s) := by
  cases caller with
  | comm | ispres | getuid => rfl
  | waitPresent => exact waitPresentReturned_hostSide ..
  | waitUid => exact waitUidReturned_hostSide ..
  | select => exact selectReturned_hostSide ..
  | auth => exact authReturned_hostSide ..
  | rdblk => exact rdblkReturned_hostSide ..
  | wrblkCommand => exact wrblkCommandReturned_hostSide ..
  | wrblkData => exact wrblkDataReturned_hostSide ..

theorem verifyReturns_hostSide (caller : VerifyCaller) (c : Status) :
    verifyReturns caller c (hostSide e reads turns s) = hostSide e reads turns (verifyReturns caller c s) := by
  cases caller with
  | select => exact selectVerified_hostSide ..
  | rdblk => exact rdblkVerified_hostSide ..

theorem calculateCRCReturns_hostSide (caller : CrcCaller) (c : Status) :
    calculateCRCReturns caller c (hostSide e reads turns s) =
      hostSide e reads turns (calculateCRCReturns caller c s) := by
  cases caller with
  | crc => rfl
  | send body sender => exact ite_hostSide rfl (communicateReturns_hostSide ..)
  | verify k verifier => exact verifyReturns_hostSide ..

theorem waitForBootUpReturns_hostSide (caller : BootCaller) (c : Status) :
    waitForBootUpReturns caller c (hostSide e reads turns s) =
      hostSide e reads turns (waitForBootUpReturns caller c s) := by
  cases caller with
  | plain => rfl
  | init => exact initBooted_hostSide ..
  | selftest => exact selftestBooted_hostSide ..

theorem checkErrorReturns_hostSide (caller : ErrorCaller) (c : Status) :
    checkErrorReturns caller c (hostSide e reads turns s) = hostSide e reads turns (checkErrorReturns caller c s) := by
  cases caller with
  | chkerr => rfl
  | communicate cap sender => exact ite_hostSide rfl (communicateReturns_hostSide ..)

theorem bulkReturns_hostSide (caller : BulkCaller) (xs : List Byte) :
    bulkReturns caller xs (hostSide e reads turns s) = hostSide e reads turns (bulkReturns caller xs s) := by
  cases caller with
  | rregn | selftest => rfl
  | communicate c sender => exact communicateReturns_hostSide e reads turns (receive xs s) sender c

/-! The polls and the bulk read. -/

theorem bootPolled_hostSide (k : Nat) (caller : BootCaller) (v : Byte) :
    bootPolled k caller v (hostSide e reads turns s) = hostSide e reads turns (bootPolled k caller v s) :=
  ite_hostSide (ite_hostSide (waitForBootUpReturns_hostSide ..) rfl) (waitForBootUpReturns_hostSide ..)

theorem comPolled_hostSide (k : Nat) (cmd : BitVec 4) (cap : Nat) (caller : CommCaller) (v : Byte) :
    comPolled k cmd cap caller v (hostSide e reads turns s) =
      hostSide e reads turns (comPolled k cmd cap caller v s) :=
  ite_hostSide (communicateReturns_hostSide ..)
    (ite_hostSide rfl (ite_hostSide (communicateReturns_hostSide ..) rfl))

theorem levelRead_hostSide (cap : Nat) (c : Status) (caller : CommCaller) (v : Byte) :
    levelRead cap c caller v (hostSide e reads turns s) = hostSide e reads turns (levelRead cap c caller v s) := by
  cases count : min (v &&& s.cfg.mLevel).toNat cap with
  | zero =>
    rw [levelRead_zero count, levelRead_zero (by exact count)]
    exact communicateReturns_hostSide e reads turns (receive [] s) caller c
  | succ left =>
    rw [levelRead_succ count, levelRead_succ (by exact count)]
    rfl

theorem crcPolled_hostSide (k : Nat) (caller : CrcCaller) (v : Byte) :
    crcPolled k caller v (hostSide e reads turns s) = hostSide e reads turns (crcPolled k caller v s) :=
  ite_hostSide rfl (ite_hostSide (calculateCRCReturns_hostSide ..) rfl)

theorem fillPolled_hostSide (k : Nat) (v : Byte) :
    fillPolled k v (hostSide e reads turns s) = hostSide e reads turns (fillPolled k v s) :=
  ite_hostSide rfl (ite_hostSide rfl rfl)

theorem bulkRead_hostSide (a : Byte) (left : Nat) (got : List Byte) (caller : BulkCaller) (v : Byte) :
    bulkRead a left got caller v (hostSide e reads turns s) =
      hostSide e reads turns (bulkRead a left got caller v s) := by
  cases left with
  | zero => exact bulkReturns_hostSide ..
  | succ left => rfl

/-! Everything that follows a primitive, and whole steps. -/

theorem proceed_hostSide (next : After) :
    proceed next (hostSide e reads turns s) = hostSide e reads turns (proceed next s) := by
  cases next <;> rfl

theorem answered_hostSide (k : Await) (v : Byte) :
    answered k v (hostSide e reads turns s) = hostSide e reads turns (answered k v s) := by
  cases k with
  | rreg | setBits | clearBits | crcHigh | authStatus => rfl
  | bulk => exact bulkRead_hostSide ..
  | boot => exact bootPolled_hostSide ..
  | error => exact checkErrorReturns_hostSide ..
  | comIrq => exact comPolled_hostSide ..
  | level => exact levelRead_hostSide ..
  | divIrq => exact crcPolled_hostSide ..
  | crcLow hi caller => exact calculateCRCReturns_hostSide e reads turns (storeCrc hi v s) caller .ok
  | fill => exact fillPolled_hostSide ..

theorem afterOutput_hostSide (rest : List Out) (next : After) :
    afterOutput rest next (hostSide e reads turns s) = hostSide e reads turns (afterOutput rest next s) := by
  cases rest with
  | nil => exact proceed_hostSide ..
  | cons o rest => rfl

theorem drive_hostSide (o : Out) : drive o (hostSide e reads turns s) = hostSide e reads turns (drive o s) := by
  cases o <;> rfl

theorem sequencerStep_hostSide :
    sequencerStep (hostSide e reads turns s) = hostSide e reads turns (sequencerStep s) := by
  have pos : (hostSide e reads turns s).pos = s.pos := rfl
  unfold sequencerStep
  rw [pos]
  split
  · rfl
  case h_2 o rest next _ =>
    rw [← afterOutput_hostSide, ← drive_hostSide]
    rfl
  case h_3 a k _ =>
    rw [← answered_hostSide]
    rfl

theorem sequencerSteps_hostSide (n : Nat) :
    sequencerSteps n (hostSide e reads turns s) = hostSide e reads turns (sequencerSteps n s) := by
  induction n generalizing s with
  | zero => rfl
  | succ n ih => rw [sequencerSteps, sequencerStep_hostSide, ih, sequencerSteps]

end

theorem sequencerSteps_cfg (n : Nat) (s : State) : (sequencerSteps n s).cfg = s.cfg := by
  induction n generalizing s with
  | zero => rfl
  | succ n ih => exact (ih (sequencerStep s)).trans (sequencerStep_inputs s).1

/-! The host's turns. -/

theorem hostWrite_busy_writes_exc_only {s : State} (hb : s.busy = true) (a v : Byte) :
    ∃ e, hostWrite a v s = .next { s with exc := e } := by
  obtain ⟨dropped, clears, ignored⟩ := writesWhileBusyAreDropped s a v
  rcases addr_cases a with input | readOnly | exc | reserved
  · exact ⟨_, dropped hb input⟩
  · exact ⟨s.exc, ignored (.inl readOnly)⟩
  · exact ⟨none, clears exc⟩
  · exact ⟨s.exc, ignored (.inr reserved)⟩

/-- While a command runs, a turn other than a reset is a sequencer step or nothing, up to the host's side. -/
theorem step_busy {s : State} {turn : Turn} {turns : List Turn} (hc : configOk s.cfg = true)
    (hs : s.schedule = turn :: turns) (hr : turn ≠ .reset) (hb : s.busy = true) :
    ∃ e reads t, step s = .next t ∧ t = hostSide e reads turns (sequencerSteps ([turn].count .sequencer) s) := by
  rw [step_turn hc hs]
  cases turn with
  | hostRead a => exact ⟨s.exc, _, _, rfl, rfl⟩
  | hostWrite a v =>
    obtain ⟨e, written⟩ := hostWrite_busy_writes_exc_only (s := { s with schedule := turns }) hb a v
    exact ⟨e, s.hostReads, _, written, rfl⟩
  | reset => exact absurd rfl hr
  | sequencer => exact ⟨_, _, _, rfl, sequencerStep_hostSide s.exc s.hostReads turns s⟩

/-- Settles O26, by induction on the schedule: the sequencer steps of the later turns commute with what the first turn
leaves on the host's side. -/
theorem hostAccessesNeverChangeARunningCommand : Obligations.HostAccessesNeverChangeARunningCommand := by
  intro turns
  induction turns with
  | nil =>
    intro s _ hs _ _
    cases s
    cases hs
    exact ⟨_, _, rfl⟩
  | cons turn turns ih =>
    intro s hc hs hr hb
    obtain ⟨e, reads, t, stepped, ht⟩ := step_busy hc hs (fun h => hr (h ▸ .head _)) (hb 0 (Nat.succ_pos _))
    have stepsFrom (rest : List Turn) : sequencerSteps (rest.count .sequencer) t =
        hostSide e reads turns (sequencerSteps ((turn :: rest).count .sequencer) s) := by
      rw [ht, sequencerSteps_hostSide, ← sequencerSteps_add, ← List.count_append, List.singleton_append]
    obtain ⟨e', reads', ran⟩ := ih t (by rw [ht]; exact (congrArg configOk (sequencerSteps_cfg _ s)).trans hc)
      (by rw [ht]; rfl) (fun h => hr (.tail _ h))
      (fun k hk => by rw [stepsFrom]; exact hb (k + 1) (Nat.succ_lt_succ hk))
    refine ⟨e', reads', ?_⟩
    rw [List.length_cons, run_succ stepped, ran, stepsFrom]
    rfl

end Sys2Proof.Machine

/-! The family 30_encoding: the command word (R90 to R97). A word decodes as its four fields do, so every statement
about words comes down to `decodeFields`, which selects the command by its field OP alone. -/

namespace Sys2Proof.Machine

/-! Selection by OP. -/

/-- The ranges of R94 and the table of R92 divide the OP values between them, so the decoder is total (R93). -/
theorem decodeFields_total (op a b c : Byte) :
    (isIllegalOp op → decodeFields op a b c = .error (.illegalOpcode op)) ∧
      (¬ isIllegalOp op → ∃ i, decodeFields op a b c = .ok i) := by
  unfold isIllegalOp decodeFields
  split
  case h_26 => exact ⟨fun _ => rfl, fun legal => by grind⟩
  all_goals exact ⟨fun illegal => by omega, fun _ => ⟨_, rfl⟩⟩

theorem opcode_of_decode {w : Word} {i : Instr} (h : decode w = .ok i) : i.opcode = Word.op w :=
  opcode_of_decodeFields h

/-- Settles O2: totality is that of the fields, and what decodes has the OP byte as its opcode. -/
theorem opcodeAloneSelectsCommand : Obligations.OpcodeAloneSelectsCommand := by
  intro w
  obtain ⟨refused, decodes⟩ := decodeFields_total (Word.op w) (Word.fieldA w) (Word.fieldB w) (Word.fieldC w)
  refine ⟨refused, fun legal => ?_, fun w' i i' sameOp hi hi' => ?_⟩
  · obtain ⟨i, hi⟩ := decodes legal
    exact ⟨i, hi, opcode_of_decode hi⟩
  · calc
      i'.opcode = Word.op w' := opcode_of_decode hi'
      _ = Word.op w := sameOp
      _ = i.opcode := (opcode_of_decode hi).symm

/-! Words and their bytes. -/

/-- The bytes of a word decode as the word does, and what follows them is left over (R74, R96). -/
theorem decodeBytes_wordBytes_append (w : Word) (rest : List Byte) :
    decodeBytes (wordBytes w ++ rest) = (decode w).map (·, rest) := by
  show decodeBytes (Word.op w :: Word.fieldA w :: Word.fieldB w :: Word.fieldC w :: rest) = _
  rw [decodeBytes_cons, decode]
  cases decodeFields (Word.op w) (Word.fieldA w) (Word.fieldB w) (Word.fieldC w) <;> rfl

theorem decode_encode (i : Instr) : decode (encode i) = .ok i :=
  (decode_packWord _ _ _ _).trans (decodeFields_operands i)

/-- Settles O1: a command's fields decode to it, and so does the word packed from them, alone or followed by bytes. -/
theorem decodeInvertsEncode : Obligations.DecodeInvertsEncode := by
  intro i rest
  refine ⟨decode_encode i, ?_⟩
  rw [decodeBytes_wordBytes_append, decode_encode]
  rfl

/-- Settles O3: each word is packed from its four fields, which decode by the row of R92 that OP names. -/
theorem operandFieldsOfEachCommand : Obligations.OperandFieldsOfEachCommand := by
  intro a b c
  and_intros <;> exact decode_packWord _ a b c

/-- Settles O4: eight closed words. -/
theorem sampleWordsDecode : Obligations.SampleWordsDecode := by
  unfold Obligations.SampleWordsDecode
  decide

/-! A word placed before the next step. -/

/-- What the opcode table's numbering of a word decodes to is what its bytes decode to. -/
theorem decodeBytes_of_decodeTableWord {nbits w : Nat} {i : Instr} (h : decodeTableWord nbits w = some i) :
    ∃ rest, decodeBytes (wordBytes (tableWord nbits w)) = .ok (i, rest) := by
  unfold decodeTableWord at h
  split at h
  case h_1 j rest decodes =>
    cases h
    exact ⟨rest, decodes⟩
  case h_2 => cases h

/-- Settles O6: placing a word schedules the OP write whose step O5 gives, with the other three fields in place. -/
theorem fetchWordRunsCommand : Obligations.FetchWordRunsCommand := by
  intro s nbits w i hc htable
  obtain ⟨rest, decodes⟩ := decodeBytes_of_decodeTableWord htable
  exact stepRunsDecodedCommand (s.withFetchWord nbits w) (Word.op (tableWord nbits w)) s.schedule i rest hc rfl decodes

end Sys2Proof.Machine

/-! The family 40_register_bus: RREG, RREGN, WREG, WREGN, SETBM and CLRBM (R110 to R116). Each finishes with Ok after the
transactions of its pseudocode, so each completion is a run that ends in `finish` (`completes_of_finish`), and each
refusal is an operand outside the limits of R92. -/

namespace Sys2Proof.Machine

/-! Acceptance and completion. -/

theorem isChipAddr_eq_true {a : Byte} (h : a.toNat ≤ 0x3F) : isChipAddr a = true := decide_eq_true h

theorem isChipAddr_eq_false {a : Byte} (h : 0x3F < a.toNat) : isChipAddr a = false := decide_eq_false h.not_ge

/-- The limits of RREGN and WREGN (R92), kept. -/
theorem countedLimits_eq_true {a n : Byte} (ha : a.toNat ≤ 0x3F) (hn : n.toNat ≤ 64) :
    (isChipAddr a && isLength n) = true :=
  (Bool.and_eq_true ..).mpr ⟨isChipAddr_eq_true ha, decide_eq_true hn⟩

/-- The limits of RREGN and WREGN (R92), violated. -/
theorem countedLimits_eq_false {a n : Byte} (h : 0x3F < a.toNat ∨ 64 < n.toNat) :
    (isChipAddr a && isLength n) = false :=
  (Bool.and_eq_false_iff ..).mpr (h.imp isChipAddr_eq_false fun hn => decide_eq_false hn.not_ge)

/-- A command within its limits whose run ends in `finish` completes with CODE and RESULT written and the rest of the
state as it is at the end of the run. -/
theorem completes_of_finish {i : Instr} {s t : State} {n : Nat} {c : Status} {r : Bool} (h : s.ready)
    (run : sequencerSteps n (startOf i { s with op := i.opcode }) = finish c r t) (idle : t.pos = .idle)
    (hw : i.wellFormed s.cfg = true) : CompletesIn i s n { t with code := c, result := r } :=
  completes_of_start h hw (run.trans (by rw [finish, ← idle]))

/-! Runs of one and two transactions. -/

/-- RREG from its start (R110). -/
theorem rreg_run {s : State} (a : Byte) (idle : s.pos = .idle) : sequencerSteps 1 (startOf (.rreg a) s) =
    finish .ok true (receive [answerTo a s] (s.moved [.r a (answerTo a s)] s.answers.tail)) :=
  sequencerStep_input idle a .rreg

/-- WREG from its start (R112). -/
theorem wreg_run {s : State} (a v : Byte) (idle : s.pos = .idle) : sequencerSteps 1 (startOf (.wreg a v) s) =
    finish .ok true (s.moved [.w a v] s.answers) :=
  sequencerStep_output idle (.write a v) [] .done

/-- SetBitMask and ClearBitMask alike (R13): a read of `a`, then a write of what `f` makes of the answer. -/
theorem modify_run {s : State} {k : Await} {a : Byte} (f : Byte → Byte) (idle : s.pos = .idle)
    (back : ∀ v t, answered k v t = toOutput (.write a (f v)) [] .done t) : sequencerSteps 2 (toInput a k s) =
      finish .ok true (s.moved [.r a (answerTo a s), .w a (f (answerTo a s))] s.answers.tail) :=
  calc
    sequencerSteps 2 (toInput a k s)
      = sequencerStep (answered k (answerTo a s) (afterRead a s)) :=
        congrArg sequencerStep (sequencerStep_input idle a k)
    _ = sequencerStep (toOutput (.write a (f (answerTo a s))) [] .done (afterRead a s)) := by rw [back]
    _ = finish .ok true ((afterRead a s).moved [.w a (f (answerTo a s))] s.answers.tail) :=
        sequencerStep_output (s := afterRead a s) idle _ [] .done
    _ = finish .ok true (s.moved [.r a (answerTo a s), .w a (f (answerTo a s))] s.answers.tail) :=
        congrArg (finish .ok true) (s.moved_moved _ _ s.answers.tail _)

/-- SETBM from its start (R114). -/
theorem setbm_run {s : State} (a m : Byte) (idle : s.pos = .idle) : sequencerSteps 2 (startOf (.setbm a m) s) =
    finish .ok true (s.moved [.r a (answerTo a s), .w a (answerTo a s ||| m)] s.answers.tail) :=
  modify_run (· ||| m) idle fun _ _ => rfl

/-- CLRBM from its start (R115). -/
theorem clrbm_run {s : State} (a m : Byte) (idle : s.pos = .idle) : sequencerSteps 2 (startOf (.clrbm a m) s) =
    finish .ok true (s.moved [.r a (answerTo a s), .w a (answerTo a s &&& ~~~m)] s.answers.tail) :=
  modify_run (· &&& ~~~m) idle fun _ _ => rfl

/-! The statements. -/

/-- Settles O31: the bulk read stores its answers, and a store is determined byte by byte (O59). -/
theorem rregnReadsInOrder : Obligations.RregnReadsInOrder := by
  refine fun a n s => ⟨fun xs ys b ha hn ready answers length stored => ?_,
    fun h hb => exec_refuses hb (countedLimits_eq_false h)⟩
  have idle := State.ready_idle ready
  have received := receiveStoresInOrder.2 xs (State.moved { s with op := 0x02 } (readEvents a xs) ys) b stored
  have run := rregn_run (s := { s with op := 0x02 }) a idle answers length
  rw [received, length] at run
  exact completes_of_finish ready run idle (countedLimits_eq_true ha hn)

/-- Settles O33: WREGN is a row of writes. -/
theorem wregnWritesTxbufInOrder : Obligations.WregnWritesTxbufInOrder := by
  refine fun a n s => ⟨fun ha hn ready => ?_, fun h hb => exec_refuses hb (countedLimits_eq_false h)⟩
  have idle := State.ready_idle ready
  exact completes_of_finish ready (wregn_run (s := { s with op := 0x04 }) a hn idle) idle (countedLimits_eq_true ha hn)

/-- Settles O34: both commands read, and write back the answer with the mask's bits set or cleared. -/
theorem setbmAndClrbmModifyARegister : Obligations.SetbmAndClrbmModifyARegister := by
  rintro a m _ s rfl
  refine ⟨fun ha ready => ?_, fun h hb => ?_⟩
  · have idle := State.ready_idle ready
    have legal := isChipAddr_eq_true ha
    exact ⟨completes_of_finish ready (setbm_run (s := { s with op := 0x05 }) a m idle) idle legal,
      completes_of_finish ready (clrbm_run (s := { s with op := 0x06 }) a m idle) idle legal⟩
  · have illegal := isChipAddr_eq_false h
    exact ⟨exec_refuses hb illegal, exec_refuses hb illegal⟩

/-- Settles O30: RREG stores the one answer, and a store of one byte writes byte 0. -/
theorem rregReadsOneRegister : Obligations.RregReadsOneRegister := by
  refine fun a s => ⟨fun ha ready => ?_, fun h hb => exec_refuses hb (isChipAddr_eq_false h)⟩
  have idle := State.ready_idle ready
  rw [← storeBytes_singleton]
  exact completes_of_finish ready (rreg_run (s := { s with op := 0x01 }) a idle) idle (isChipAddr_eq_true ha)

/-- Settles O32: WREG is one write. -/
theorem wregWritesOneRegister : Obligations.WregWritesOneRegister := by
  refine fun a v s => ⟨fun ha ready => ?_, fun h hb => exec_refuses hb (isChipAddr_eq_false h)⟩
  have idle := State.ready_idle ready
  exact completes_of_finish ready (wreg_run (s := { s with op := 0x03 }) a v idle) idle (isChipAddr_eq_true ha)

end Sys2Proof.Machine

/-! The family 41_lifecycle: the reset and boot commands, CHKERR, ANT, INIT, SELFTEST and FLUSH (R130 to R139). The five
commands that wait for boot differ in what they do before and after the wait only: `ReachesBootWait` says where the wait
begins, and the wait's two outcomes, that it returns or that it goes on, are derived from it once. -/

namespace Sys2Proof.Machine

/-- Two runs in a row. -/
theorem sequencerSteps_trans {s t u : State} {m n : Nat} (first : sequencerSteps m s = t)
    (second : sequencerSteps n t = u) : sequencerSteps (m + n) s = u := by
  rw [sequencerSteps_add, first, second]

/-! Up to the boot wait. -/

/-- The state in which HRST and INIT begin the boot wait (R132, R137). -/
def pulsed (s : State) : State :=
  State.moved { s with pstate := .idle, rstN := true } [.p false, .p true] s.answers

/-- The state in which SRST and SELFTEST begin the boot wait (R133, R138). -/
def softReset (s : State) : State :=
  State.moved (setPState .idle s) [.w s.cfg.regCommand (commandByte s.cfg.cmdSoftReset)] s.answers

theorem softReset_moved (s : State) (es : List BusEvent) (ys : List Byte) : (softReset s).moved es ys =
    (setPState .idle s).moved ([.w s.cfg.regCommand (commandByte s.cfg.cmdSoftReset)] ++ es) ys :=
  State.moved_moved _ _ es _ ys

/-- Command `i`, within its limits and issued at `s`, begins waitForBootUp at `t` after `k` steps, with no answer used
and CODE and RESULT not yet written (R30). -/
structure ReachesBootWait (i : Instr) (k : Nat) (caller : BootCaller) (s t : State) : Prop where
  limits : i.wellFormed s.cfg = true
  run : sequencerSteps k (startOf i { s with op := i.opcode }) = startWaitForBootUp caller t
  idle : t.pos = .idle
  cfg : t.cfg = s.cfg
  answers : t.answers = s.answers
  code : t.code = s.code
  result : t.result = s.result

section
variable {s : State} (idle : s.pos = .idle)
include idle

theorem waitboot_reachesBootWait : ReachesBootWait .waitboot 0 .plain s { s with op := 0x12 } :=
  ⟨rfl, rfl, idle, rfl, rfl, rfl, rfl⟩

theorem hrst_reachesBootWait : ReachesBootWait .hrst 2 .plain s (pulsed { s with op := 0x10 }) :=
  ⟨rfl, pulse_run .plain (setPState .idle { s with op := 0x10 }) idle, idle, rfl, rfl, rfl, rfl⟩

theorem init_reachesBootWait : ReachesBootWait .init 2 .init s (pulsed { s with op := 0x15 }) :=
  ⟨rfl, pulse_run .init (setPState .idle { s with op := 0x15 }) idle, idle, rfl, rfl, rfl, rfl⟩

theorem srst_reachesBootWait : ReachesBootWait .srst 1 .plain s (softReset { s with op := 0x11 }) :=
  ⟨rfl, softReset_run .plain (setPState .idle { s with op := 0x11 }) idle _, idle, rfl, rfl, rfl, rfl⟩

theorem selftest_reachesBootWait : ReachesBootWait .selftest 1 .selftest s (softReset { s with op := 0x16 }) :=
  ⟨rfl, softReset_run .selftest (setPState .idle { s with op := 0x16 }) idle _, idle, rfl, rfl, rfl, rfl⟩

end

namespace ReachesBootWait
variable {i : Instr} {k : Nat} {caller : BootCaller} {s t : State}

/-- On answers that end the wait it returns its status (R130). -/
theorem returns (start : ReachesBootWait i k caller s t) {x : BootRun} {ys : List Byte} (fits : x.fits s.cfg)
    (answers : s.answers = x.answers ++ ys) :
    sequencerSteps (k + (x.events s.cfg).length) (startOf i { s with op := i.opcode }) =
      waitForBootUpReturns caller x.status (t.moved (x.events s.cfg) ys) := by
  rw [sequencerSteps_add, start.run, ← start.cfg]
  exact boot_run x caller ys t start.idle (start.answers.trans answers) (start.cfg ▸ fits)

/-- Without a bound, answers with M_POWERDOWN set leave the command at the next poll (R130). -/
theorem keepsPolling (start : ReachesBootWait i k caller s t) (ready : s.ready) (unbounded : s.cfg.bootPollMax = none)
    {vs ys : List Byte} (down : ∀ v ∈ vs, anyBit v s.cfg.mPowerDown = true) (answers : s.answers = vs ++ ys) :
    CompletesIn i s (k + vs.length)
      (toInput s.cfg.regCommand (.boot vs.length caller) (t.moved (readEvents s.cfg.regCommand vs) ys)) := by
  have lasts : bootBudgetLasts s.cfg vs.length := fun n bound => nomatch unbounded.symm.trans bound
  refine completes_of_start ready start.limits ?_
  rw [sequencerSteps_add, start.run, ← start.cfg]
  exact boot_misses caller vs ys t start.idle (start.answers.trans answers) (start.cfg ▸ lasts) (start.cfg ▸ down)

end ReachesBootWait

/-! WAITBOOT, HRST, SRST. -/

/-- Settles O36: WAITBOOT is the boot wait. -/
theorem waitbootWaitsForBoot : Obligations.WaitbootWaitsForBoot := by
  intro x ys s ready fits answers
  have idle := State.ready_idle ready
  have run := (waitboot_reachesBootWait idle).returns fits answers
  rw [Nat.zero_add] at run
  exact completes_of_finish ready run idle rfl

/-- Settles O37: HRST is the pulse and the boot wait. -/
theorem hrstPulsesRstN : Obligations.HrstPulsesRstN := by
  intro x ys s ready fits answers
  have idle := State.ready_idle ready
  exact completes_of_finish ready ((hrst_reachesBootWait idle).returns fits answers) idle rfl

/-- Settles O38: SRST is the soft-reset write and the boot wait. -/
theorem srstCommandsSoftReset : Obligations.SrstCommandsSoftReset := by
  intro x ys s ready fits answers
  have idle := State.ready_idle ready
  exact completes_of_finish ready ((srst_reachesBootWait idle).returns fits answers) idle rfl

/-- Settles O39: each of the five commands is at its next poll after any number of answers. -/
theorem bootWaitNeverGivesUp : Obligations.BootWaitNeverGivesUp := by
  intro vs ys s ready unbounded down answers p waits
  have idle := State.ready_idle ready
  suffices start : ∃ caller t, ReachesBootWait p.1 p.2 caller s t by
    obtain ⟨caller, t, start⟩ := start
    obtain ⟨s1, accepted, run⟩ := start.keepsPolling ready unbounded (fun v hv => bne_iff_ne.2 (down v hv)) answers
    exact ⟨s1, _, accepted, run, rfl, start.code, start.result, rfl⟩
  simp only [List.mem_cons, List.not_mem_nil, or_false] at waits
  obtain rfl | rfl | rfl | rfl | rfl := waits
  · exact ⟨_, _, waitboot_reachesBootWait idle⟩
  · exact ⟨_, _, hrst_reachesBootWait idle⟩
  · exact ⟨_, _, srst_reachesBootWait idle⟩
  · exact ⟨_, _, init_reachesBootWait idle⟩
  · exact ⟨_, _, selftest_reachesBootWait idle⟩

/-! CHKERR, FLUSH, ANT, INIT. -/

/-- CHKERR from its start (R135). -/
theorem chkerr_run {s : State} (idle : s.pos = .idle) : sequencerSteps 1 (startOf .chkerr s) =
    finish (errorStatus s.cfg (answerTo s.cfg.regError s)) (isOk (errorStatus s.cfg (answerTo s.cfg.regError s)))
      (s.moved [.r s.cfg.regError (answerTo s.cfg.regError s)] s.answers.tail) :=
  sequencerStep_input idle s.cfg.regError (.error .chkerr)

/-- Settles O41: the machine's map of REG_ERROR is the chain of R134. -/
theorem chkerrDecodesByPriority : Obligations.ChkerrDecodesByPriority := by
  rintro s ready _ c rfl chain
  have idle := State.ready_idle ready
  obtain rfl : errorStatus s.cfg (answerTo s.cfg.regError s) = c := by
    simpa only [errorStatus, anyBit, bne_iff_ne] using chain.symm
  exact completes_of_finish ready (chkerr_run (s := { s with op := 0x14 }) idle) idle rfl

/-- FLUSH from its start (R139). -/
theorem flush_run {s : State} (idle : s.pos = .idle) : sequencerSteps 1 (startOf .flush s) =
    finish .ok true (s.moved [.w s.cfg.regFifoLevel s.cfg.mFlush] s.answers) :=
  sequencerStep_output idle (.write s.cfg.regFifoLevel s.cfg.mFlush) [] .done

/-- Settles O44: FLUSH is one write. -/
theorem flushWritesTheFlushBit : Obligations.FlushWritesTheFlushBit := by
  intro s ready
  have idle := State.ready_idle ready
  exact completes_of_finish ready (flush_run (s := { s with op := 0x17 }) idle) idle rfl

/-- SetBitMask and ClearBitMask alike (R13), with what follows: a read of `a`, a write of what `f` makes of the answer,
then a row of writes. -/
theorem modifyThenWrite_run {s : State} {k : Await} {a : Byte} {rest : List Out} {next : After} (f : Byte → Byte)
    (idle : s.pos = .idle) (writes : rest.all isWrite = true)
    (back : ∀ v t, answered k v t = toOutput (.write a (f v)) rest next t) :
    sequencerSteps (2 + rest.length) (toInput a k s) = proceed next
      (s.moved ([.r a (answerTo a s), .w a (f (answerTo a s))] ++ rest.map outEvent) s.answers.tail) := by
  rw [show 2 + rest.length = 1 + (rest.length + 1) by omega, sequencerSteps_add, sequencerSteps_one,
    sequencerStep_input idle, back, writes_run rest next _ (afterRead a s) idle rfl writes]
  exact congrArg (proceed next) (s.moved_moved _ _ s.answers.tail _)

/-- ANT 1 from its start is SETBM of the driver bits (R136). -/
theorem startOf_ant_one (s : State) : startOf (.ant 1) s = startOf (.setbm s.cfg.regTxControl s.cfg.mAntenna) s :=
  rfl

/-- ANT 0 from its start (R136). -/
theorem ant_zero_run {s : State} (idle : s.pos = .idle) : sequencerSteps 2 (startOf (.ant 0) s) =
    finish .ok true (setPState .idle (s.moved [.r s.cfg.regTxControl (answerTo s.cfg.regTxControl s),
      .w s.cfg.regTxControl (answerTo s.cfg.regTxControl s &&& ~~~s.cfg.mAntenna)] s.answers.tail)) := by
  have off : startOf (.ant 0) s = startClearBits s.cfg.regTxControl s.cfg.mAntenna .antennaOff s := rfl
  rw [off]
  exact modifyThenWrite_run (rest := []) (next := .antennaOff) (· &&& ~~~s.cfg.mAntenna) idle rfl fun _ _ => rfl

/-- Settles O40: ANT 1 sets the driver bits as SETBM does, ANT 0 clears them and then leaves PSTATE at Idle. -/
theorem antSwitchesDrivers : Obligations.AntSwitchesDrivers := by
  refine fun on s => ⟨?_, ?_, fun h hb => exec_refuses hb (decide_eq_false h.not_ge)⟩
  · rintro rfl ready
    have idle := State.ready_idle ready
    have run := setbm_run (s := { s with op := 0x13 }) s.cfg.regTxControl s.cfg.mAntenna idle
    rw [← startOf_ant_one { s with op := 0x13 }] at run
    exact completes_of_finish ready run idle rfl
  · rintro rfl ready
    have idle := State.ready_idle ready
    exact completes_of_finish ready (ant_zero_run (s := { s with op := 0x13 }) idle) idle rfl

/-- INIT after a successful boot wait (R137): antenna on, then INIT_SEQ in list order. -/
theorem initBooted_run {s : State} {v : Byte} {ys : List Byte} (idle : s.pos = .idle) (answers : s.answers = v :: ys) :
    sequencerSteps (2 + s.cfg.initSeq.length) (initBooted .ok s) = finish .ok true
      (s.moved ([.r s.cfg.regTxControl v, .w s.cfg.regTxControl (v ||| s.cfg.mAntenna)] ++
        s.cfg.initSeq.map fun e => .w e.1 e.2) ys) := by
  have run := modifyThenWrite_run (a := s.cfg.regTxControl) (rest := s.cfg.initSeq.map fun e => Out.write e.1 e.2)
    (next := .done) (· ||| s.cfg.mAntenna) idle (by simp [isWrite])
    (fun v t => (rfl : answered (.setBits s.cfg.regTxControl s.cfg.mAntenna _ .done) v t = _))
  rw [answerTo_cons answers, answers, List.length_map, List.map_map] at run
  exact run

/-- Settles O42: the pulse and the boot wait, and on its success the configuration writes. -/
theorem initConfiguresTheChip : Obligations.InitConfiguresTheChip := by
  intro x v ys s ready fits
  have idle := State.ready_idle ready
  refine ⟨fun failed answers => ?_, fun booted answers => ?_⟩
  · have wait := (init_reachesBootWait idle).returns fits answers
    rw [waitForBootUpReturns, initBooted, if_neg failed] at wait
    exact completes_of_finish ready wait idle rfl
  · have wait := (init_reachesBootWait idle).returns fits answers
    rw [booted] at wait
    have configure := initBooted_run (s := (pulsed { s with op := 0x15 }).moved (x.events s.cfg) (v :: ys)) idle rfl
    rw [Nat.add_assoc (2 + _), List.append_assoc (_ ++ _)]
    exact completes_of_finish ready (sequencerSteps_trans wait configure) idle rfl

/-! SELFTEST. -/

/-- From a successful boot wait to the first fill poll (R138). -/
theorem selftestBooted_run {s : State} (idle : s.pos = .idle) :
    sequencerSteps (selftestLoadEvents s.cfg).length (selftestBooted .ok s) =
      toInput s.cfg.regFifoLevel (.fill 0) (s.moved (selftestLoadEvents s.cfg) s.answers) := by
  have run := writes_run
    (writesOf s.cfg.regFifoData (List.replicate s.cfg.selftestZeros 0x00) ++
      [.write s.cfg.regCommand (commandByte s.cfg.cmdMem), .write s.cfg.regAutoTest s.cfg.autoTestOn,
        .write s.cfg.regFifoData 0x00, .write s.cfg.regCommand (commandByte s.cfg.cmdCalcCrc)])
    .pollFill (.write s.cfg.regFifoLevel s.cfg.mFlush) s idle rfl (by simp [isWrite, writesOf_all_isWrite])
  rw [List.map_cons, List.map_append, writesOf_outEvent, List.length_append, writesOf_length] at run
  rw [selftestLoadEvents, List.cons_append, List.length_cons, List.length_append, writeEvents_length]
  exact run

/-- `sequencerSteps_trans` with the runs' lengths and histories given by their events. -/
theorem sequencerSteps_append {s t base : State} {f : State → State} {es fs : List BusEvent} {xs ys : List Byte}
    {n : Nat} (first : sequencerSteps es.length s = t)
    (second : sequencerSteps n t = f ((base.moved es xs).moved fs ys)) (count : fs.length = n) :
    sequencerSteps (es ++ fs).length s = f (base.moved (es ++ fs) ys) := by
  rw [List.length_append, count, ← State.moved_moved]
  exact sequencerSteps_trans first second

/-- The events of SELFTEST up to the end of its boot wait (R138). -/
def selftestBootEvents (x : BootRun) (cfg : Config) : List BusEvent :=
  [.w cfg.regCommand (commandByte cfg.cmdSoftReset)] ++ x.events cfg

/-- SELFTEST from its start to the end of its boot wait (R138). -/
theorem selftest_boots {s : State} (idle : s.pos = .idle) {x : BootRun} {ys : List Byte} (fits : x.fits s.cfg)
    (answers : s.answers = x.answers ++ ys) :
    sequencerSteps (selftestBootEvents x s.cfg).length (startOf .selftest { s with op := 0x16 }) =
      selftestBooted x.status ((setPState .idle { s with op := 0x16 }).moved (selftestBootEvents x s.cfg) ys) := by
  have wait := (selftest_reachesBootWait idle).returns fits answers
  rw [softReset_moved] at wait
  rw [selftestBootEvents, List.length_append]
  exact wait

/-- SELFTEST from its start to the first fill poll, when the boot wait succeeds (R138). -/
theorem selftest_fills {s : State} (idle : s.pos = .idle) {x : BootRun} {ys : List Byte} (fits : x.fits s.cfg)
    (booted : x.status = .ok) (answers : s.answers = x.answers ++ ys) :
    sequencerSteps (selftestBootEvents x s.cfg ++ selftestLoadEvents s.cfg).length
        (startOf .selftest { s with op := 0x16 }) =
      toInput s.cfg.regFifoLevel (.fill 0) ((setPState .idle { s with op := 0x16 }).moved
        (selftestBootEvents x s.cfg ++ selftestLoadEvents s.cfg) ys) := by
  have load := selftestBooted_run (s := (setPState .idle { s with op := 0x16 }).moved (selftestBootEvents x s.cfg) ys)
    idle
  have boots := selftest_boots idle fits answers
  rw [booted] at boots
  exact sequencerSteps_append boots load rfl

theorem BootRun.status_eq_timeOut {x : BootRun} (h : x.status ≠ .ok) : x.status = .timeOut := by
  obtain ⟨misses, _ | v⟩ := x
  · rfl
  · exact absurd rfl h

theorem level_lt_of_not_fifoFull {cfg : Config} {v : Byte} (h : fifoFull cfg v = false) :
    (v &&& cfg.mLevel).toNat < 64 :=
  Nat.lt_of_not_le (of_decide_eq_false h)

/-- Settles O43: the soft reset and the boot wait; on its success the fill poll, which runs out or fills. -/
theorem selftestComparesTheCapture : Obligations.SelftestComparesTheCapture := by
  intro x ys s es ready fits boot
  have idle := State.ready_idle ready
  obtain rfl : es = selftestBootEvents x s.cfg := boot
  refine ⟨fun failed answers => ?_, fun booted misses fs below => ?_⟩
  · have run := selftest_boots idle fits answers
    rw [selftestBooted, if_neg failed, BootRun.status_eq_timeOut failed] at run
    exact completes_of_finish ready run idle rfl
  have fills := fun rest (answers : s.answers = x.answers ++ rest) => selftest_fills idle fits booted answers
  have below := fun v hv => level_lt_of_not_fifoFull (below v hv)
  refine ⟨fun spent answers events => ?_, fun lasts full xs pass filled length answers judged events => ?_⟩
  · have poll := fill_exhausted_run misses ys ((setPState .idle { s with op := 0x16 }).moved
      (selftestBootEvents x s.cfg ++ selftestLoadEvents s.cfg) (misses ++ ys)) idle rfl spent
      (legalConfig_of_configOk ready.1).selftestPollMax.ne' below
    have run := sequencerSteps_append (fills _ (answers.trans (List.append_assoc ..))) poll (by simp)
    rw [State.moved_cfg, ← List.append_assoc] at run
    subst events
    exact completes_of_finish ready run idle rfl
  · have poll := fill_capture_run misses ys xs full ((setPState .idle { s with op := 0x16 }).moved
      (selftestBootEvents x s.cfg ++ selftestLoadEvents s.cfg) (misses ++ full :: (xs ++ ys))) idle rfl lasts
      (of_decide_eq_true filled) length below
    have run := sequencerSteps_append (fills _ (by simp [answers])) poll (by simp [length])
    simp only [← List.append_assoc] at run
    rw [selftestJudged, receive, length] at run
    subst events judged
    exact completes_of_finish ready run idle rfl

end Sys2Proof.Machine

/-! The family 42_transceiver: COMM (R164), which is one call of communicate (R160 to R163), and how many transactions
that call takes (R167). -/

namespace Sys2Proof.Machine

/-- The limits of COMM (R92), kept. -/
theorem commLimits_eq_true {cmd n cap : Byte} (hcmd : cmd.toNat ≤ 0x0F) (hn : n.toNat ≤ 64) (hcap : cap.toNat ≤ 64) :
    (isChipCommand cmd && isLength n && isLength cap) = true := by
  simp [isChipCommand, isLength, hcmd, hn, hcap]

/-- The limits of COMM (R92), violated. -/
theorem commLimits_eq_false {cmd n cap : Byte} (h : 0x0F < cmd.toNat ∨ 64 < n.toNat ∨ 64 < cap.toNat) :
    (isChipCommand cmd && isLength n && isLength cap) = false := by
  obtain hcmd | hn | hcap := h
  · simp [isChipCommand, hcmd]
  · simp [isLength, hn]
  · simp [isLength, hcap]

/-- COMM from its start: communicate returns its status, with which COMM finishes (R164). -/
theorem comm_run {x : ComRun} {cmd n cap : Byte} {ys : List Byte} {s : State} (idle : s.pos = .idle)
    (budget : s.cfg.pollMax ≠ 0) (fits : x.fits s.cfg (chipCommand cmd) cap.toNat)
    (answers : s.answers = x.answers s.cfg (chipCommand cmd) ++ ys) :
    sequencerSteps (x.events s.cfg (chipCommand cmd) (firstBytes n.toNat s.txbuf)).length
        (startOf (.comm cmd n cap) s) =
      finish (x.status s.cfg) (isOk (x.status s.cfg)) (receive x.data
        (s.moved (x.events s.cfg (chipCommand cmd) (firstBytes n.toNat s.txbuf)) ys)) :=
  communicate_run x (chipCommand cmd) _ cap.toNat .comm ys s idle budget answers fits

/-- Settles O45: COMM is one exchange, and a refusal is an operand outside its limits. -/
theorem commRunsOneExchange : Obligations.CommRunsOneExchange := by
  refine fun cmd n cap s => ⟨?_, fun h hb => exec_refuses hb (commLimits_eq_false h)⟩
  rintro x ys hcmd hn hcap ready fits answers _ rfl
  have idle := State.ready_idle ready
  exact completes_of_finish ready
    (comm_run (s := { s with op := 0x20 }) idle (configOk_pollMax ready.1) fits answers) idle
    (commLimits_eq_true hcmd hn hcap)

/-! Counts. -/

theorem loadEvents_length (cfg : Config) (cmd : BitVec 4) (tx : List Byte) :
    (loadEvents cfg cmd tx).length = 3 + tx.length + 1 := by
  simp [loadEvents]; omega

theorem startSendEvents_length (cfg : Config) (cmd : BitVec 4) (framing : Byte) :
    (startSendEvents cfg cmd framing).length = if cmd = cfg.cmdTransceive then 2 else 0 := by
  unfold startSendEvents; split <;> rfl

theorem readBackEvents_length (cfg : Config) (irq e level : Byte) (data : List Byte) :
    (ComEnd.events cfg (.readBack irq e level data)).length = 1 + 1 + 1 + data.length := by
  simp [ComEnd.events]; omega

/-- How many transactions communicate takes (R167): load and start, M_STARTSEND, the polls that end nothing, the end. -/
theorem ComRun.events_length (x : ComRun) (cfg : Config) (cmd : BitVec 4) (tx : List Byte) :
    (x.events cfg cmd tx).length = 3 + tx.length + 1 + (if cmd = cfg.cmdTransceive then 2 else 0) + x.misses.length +
      (x.ending.events cfg).length := by
  simp only [ComRun.events, List.length_append, loadEvents_length, startSendEvents_length, readEvents_length]

/-- Settles O46: the steps of COMM are the events of its exchange (O45), counted. -/
theorem exchangeLength : Obligations.ExchangeLength := by
  rintro cmd n cap x ys s _ _ hcmd hn hcap ready fits answers rfl rfl
  have completes := (commRunsOneExchange cmd n cap s).1 x ys hcmd hn hcap ready fits answers _ rfl
  have sent : (s.txbuf.toList.take n.toNat).length = n.toNat :=
    (firstBytes_length n.toNat s.txbuf).trans (Nat.min_eq_left hn)
  have count := x.events_length s.cfg (cmd.setWidth 4) (s.txbuf.toList.take n.toNat)
  rw [sent] at count
  refine ⟨fun irq e level data ends => ?_, fun irq e ends => ?_⟩
  · rw [ends, readBackEvents_length] at count
    exact ⟨_, _, completes, ready.2.1, List.length_append, by omega⟩
  · rw [ends, show (ComEnd.events s.cfg (.failed irq e)).length = 1 + 1 from rfl] at count
    exact ⟨_, _, completes, ready.2.1, List.length_append, by omega⟩

end Sys2Proof.Machine

/-! The family 43_discovery, PSTATE (R27, R187). Every function of a step, begun with another PSTATE, comes to the same
state, because it writes PSTATE, or to the same state but for a PSTATE it leaves as it was (`BlindToPState`): by
computation where the function has no branch, and else branch by branch, as no test reads PSTATE. -/

namespace Sys2Proof.Machine

/-- What a computation begun at `s` came to, `t`, and what the same computation begun with PSTATE = `p` came to, `u`: the
same state, or states in which PSTATE, which neither wrote, is the only difference. -/
def BlindToPState (p : PState) (s t u : State) : Prop := u = t ∨ t.pstate = s.pstate ∧ u = setPState p t

namespace BlindToPState
variable {p : PState} {s : State}

/-- A computation that writes PSTATE. -/
theorem of_overwrites (t : State) : BlindToPState p s t t := .inl rfl

/-- A computation that leaves PSTATE. -/
theorem of_keeps {t : State} (h : t.pstate = s.pstate) : BlindToPState p s t (setPState p t) := .inr ⟨h, rfl⟩

/-- A branch whose test does not read PSTATE. -/
theorem branch {t₁ t₂ u₁ u₂ : State} {q : Prop} {i j : Decidable q} (h₁ : BlindToPState p s t₁ u₁)
    (h₂ : BlindToPState p s t₂ u₂) : BlindToPState p s (@ite _ q i t₁ t₂) (@ite _ q j u₁ u₂) := by
  obtain rfl := Subsingleton.elim i j
  split <;> assumption

/-- The two outcomes in the words of the statement. -/
theorem exists_pstate {t u : State} (h : BlindToPState p s t u) :
    ∃ q, u = { t with pstate := q } ∧ (q = t.pstate ∨ t.pstate = s.pstate ∧ q = p) := by
  obtain rfl | ⟨kept, rfl⟩ := h
  · exact ⟨u.pstate, rfl, .inl rfl⟩
  · exact ⟨p, rfl, .inr ⟨kept, rfl⟩⟩

end BlindToPState

section
variable (p : PState) (s : State)
open BlindToPState

/-! The commands as a procedure returns to them. -/

theorem waitPresentReturned_blind (c : Status) :
    BlindToPState p s (waitPresentReturned c s) (waitPresentReturned c (setPState p s)) :=
  branch (of_overwrites _) (of_overwrites _)

theorem waitUidReturned_blind (c : Status) :
    BlindToPState p s (waitUidReturned c s) (waitUidReturned c (setPState p s)) :=
  branch (of_overwrites _) (of_overwrites _)

theorem selectReturned_blind (c : Status) :
    BlindToPState p s (selectReturned c s) (selectReturned c (setPState p s)) :=
  branch (of_overwrites _) (branch (of_overwrites _) (of_keeps rfl))

theorem selectVerified_blind (c : Status) :
    BlindToPState p s (selectVerified c s) (selectVerified c (setPState p s)) :=
  branch (of_overwrites _) (of_overwrites _)

theorem authReturned_blind (c : Status) :
    BlindToPState p s (authReturned c s) (authReturned c (setPState p s)) :=
  branch (of_keeps rfl) (of_overwrites _)

theorem rdblkReturned_blind (c : Status) :
    BlindToPState p s (rdblkReturned c s) (rdblkReturned c (setPState p s)) :=
  branch (of_overwrites _) (branch (of_overwrites _) (of_keeps rfl))

theorem rdblkVerified_blind (c : Status) :
    BlindToPState p s (rdblkVerified c s) (rdblkVerified c (setPState p s)) :=
  branch (of_keeps rfl) (of_overwrites _)

theorem wrblkCommandReturned_blind (c : Status) :
    BlindToPState p s (wrblkCommandReturned c s) (wrblkCommandReturned c (setPState p s)) :=
  branch (of_overwrites _) (branch (of_keeps rfl) (of_overwrites _))

theorem wrblkDataReturned_blind (c : Status) :
    BlindToPState p s (wrblkDataReturned c s) (wrblkDataReturned c (setPState p s)) :=
  branch (of_overwrites _) (branch (of_keeps rfl) (of_overwrites _))

theorem initBooted_blind (c : Status) : BlindToPState p s (initBooted c s) (initBooted c (setPState p s)) :=
  branch (of_keeps rfl) (of_keeps rfl)

theorem selftestBooted_blind (c : Status) :
    BlindToPState p s (selftestBooted c s) (selftestBooted c (setPState p s)) :=
  branch (of_keeps rfl) (of_keeps rfl)

/-! The procedures as they return to their callers. -/

theorem communicateReturns_blind (caller : CommCaller) (c : Status) :
    BlindToPState p s (communicateReturns caller c s) (communicateReturns caller c (setPState p s)) := by
  cases caller with
  | comm => exact of_keeps rfl
  | ispres | getuid => exact of_overwrites _
  | waitPresent => exact waitPresentReturned_blind ..
  | waitUid => exact waitUidReturned_blind ..
  | select => exact selectReturned_blind ..
  | auth => exact authReturned_blind ..
  | rdblk => exact rdblkReturned_blind ..
  | wrblkCommand => exact wrblkCommandReturned_blind ..
  | wrblkData => exact wrblkDataReturned_blind ..

theorem verifyReturns_blind (caller : VerifyCaller) (c : Status) :
    BlindToPState p s (verifyReturns caller c s) (verifyReturns caller c (setPState p s)) := by
  cases caller with
  | select => exact selectVerified_blind ..
  | rdblk => exact rdblkVerified_blind ..

theorem calculateCRCReturns_blind (caller : CrcCaller) (c : Status) :
    BlindToPState p s (calculateCRCReturns caller c s) (calculateCRCReturns caller c (setPState p s)) := by
  cases caller with
  | crc => exact of_keeps rfl
  | send body sender => exact branch (of_keeps rfl) (communicateReturns_blind ..)
  | verify k verifier => exact verifyReturns_blind p s verifier (verifyStatus k c s)

theorem waitForBootUpReturns_blind (caller : BootCaller) (c : Status) :
    BlindToPState p s (waitForBootUpReturns caller c s) (waitForBootUpReturns caller c (setPState p s)) := by
  cases caller with
  | plain => exact of_keeps rfl
  | init => exact initBooted_blind ..
  | selftest => exact selftestBooted_blind ..

theorem checkErrorReturns_blind (caller : ErrorCaller) (c : Status) :
    BlindToPState p s (checkErrorReturns caller c s) (checkErrorReturns caller c (setPState p s)) := by
  cases caller with
  | chkerr => exact of_keeps rfl
  | communicate cap sender => exact branch (of_keeps rfl) (communicateReturns_blind ..)

theorem bulkReturns_blind (caller : BulkCaller) (xs : List Byte) :
    BlindToPState p s (bulkReturns caller xs s) (bulkReturns caller xs (setPState p s)) := by
  cases caller with
  | rregn | selftest => exact of_keeps rfl
  | communicate c sender => exact communicateReturns_blind p (receive xs s) sender c

/-! The polls and the bulk read. -/

theorem bootPolled_blind (k : Nat) (caller : BootCaller) (v : Byte) :
    BlindToPState p s (bootPolled k caller v s) (bootPolled k caller v (setPState p s)) :=
  branch (branch (waitForBootUpReturns_blind ..) (of_keeps rfl)) (waitForBootUpReturns_blind ..)

theorem comPolled_blind (k : Nat) (cmd : BitVec 4) (cap : Nat) (caller : CommCaller) (v : Byte) :
    BlindToPState p s (comPolled k cmd cap caller v s) (comPolled k cmd cap caller v (setPState p s)) :=
  branch (communicateReturns_blind ..) (branch (of_keeps rfl) (branch (communicateReturns_blind ..) (of_keeps rfl)))

theorem levelRead_blind (cap : Nat) (c : Status) (caller : CommCaller) (v : Byte) :
    BlindToPState p s (levelRead cap c caller v s) (levelRead cap c caller v (setPState p s)) := by
  cases count : min (v &&& s.cfg.mLevel).toNat cap with
  | zero =>
    rw [levelRead_zero count, levelRead_zero (by exact count)]
    exact communicateReturns_blind p (receive [] s) caller c
  | succ left =>
    rw [levelRead_succ count, levelRead_succ (by exact count)]
    exact of_keeps rfl

theorem crcPolled_blind (k : Nat) (caller : CrcCaller) (v : Byte) :
    BlindToPState p s (crcPolled k caller v s) (crcPolled k caller v (setPState p s)) :=
  branch (of_keeps rfl) (branch (calculateCRCReturns_blind ..) (of_keeps rfl))

theorem fillPolled_blind (k : Nat) (v : Byte) :
    BlindToPState p s (fillPolled k v s) (fillPolled k v (setPState p s)) :=
  branch (of_keeps rfl) (branch (of_keeps rfl) (of_keeps rfl))

theorem bulkRead_blind (a : Byte) (left : Nat) (got : List Byte) (caller : BulkCaller) (v : Byte) :
    BlindToPState p s (bulkRead a left got caller v s) (bulkRead a left got caller v (setPState p s)) := by
  cases left with
  | zero => exact bulkReturns_blind ..
  | succ left => exact of_keeps rfl

/-! Everything that follows a primitive, and whole steps. -/

theorem proceed_blind (next : After) : BlindToPState p s (proceed next s) (proceed next (setPState p s)) := by
  cases next with
  | antennaOff => exact of_overwrites _
  | _ => exact of_keeps rfl

theorem answered_blind (k : Await) (v : Byte) :
    BlindToPState p s (answered k v s) (answered k v (setPState p s)) := by
  cases k with
  | rreg | setBits | clearBits | crcHigh => exact of_keeps rfl
  | authStatus => exact of_overwrites _
  | bulk => exact bulkRead_blind ..
  | boot => exact bootPolled_blind ..
  | error => exact checkErrorReturns_blind ..
  | comIrq => exact comPolled_blind ..
  | level => exact levelRead_blind ..
  | divIrq => exact crcPolled_blind ..
  | crcLow hi caller => exact calculateCRCReturns_blind p (storeCrc hi v s) caller .ok
  | fill => exact fillPolled_blind ..

theorem afterOutput_blind (rest : List Out) (next : After) :
    BlindToPState p s (afterOutput rest next s) (afterOutput rest next (setPState p s)) := by
  cases rest with
  | nil => exact proceed_blind ..
  | cons o rest => exact of_keeps rfl

theorem sequencerStep_blind : BlindToPState p s (sequencerStep s) (sequencerStep (setPState p s)) := by
  have pos : (setPState p s).pos = s.pos := rfl
  unfold sequencerStep
  rw [pos]
  split
  case h_1 => exact of_keeps rfl
  case h_2 o rest next _ =>
    cases o with
    | write a v => exact afterOutput_blind p (drive (.write a v) (leavePosition s)) rest next
    | pin l => exact afterOutput_blind p (drive (.pin l) (leavePosition s)) rest next
  case h_3 a k _ => exact answered_blind p (afterRead a (leavePosition s)) k (answerTo a s)

theorem startOf_blind (i : Instr) : BlindToPState p s (startOf i s) (startOf i (setPState p s)) := by
  cases i with
  | hrst | srst | init | selftest | getuid => exact of_overwrites _
  | ant on => exact branch (of_keeps rfl) (of_keeps rfl)
  | rregn addr n =>
    cases count : n.toNat with
    | zero => rw [startOf_rregn_zero count, startOf_rregn_zero count]; exact of_keeps rfl
    | succ left => rw [startOf_rregn_succ count, startOf_rregn_succ count]; exact of_keeps rfl
  | wregn addr n =>
    cases sent : firstBytes n.toNat s.txbuf with
    | nil => rw [startOf_wregn_nil sent, startOf_wregn_nil (by exact sent)]; exact of_keeps rfl
    | cons x xs => rw [startOf_wregn_cons sent, startOf_wregn_cons (by exact sent)]; exact of_keeps rfl
  | _ => exact of_keeps rfl

theorem raiseException_blind (c : Cause) :
    BlindToPState p s (raiseException c s) (raiseException c (setPState p s)) := by
  rw [raiseException_eq, raiseException_eq]
  exact of_keeps rfl

/-- Issuing a command (R30): each of the three answers is blind. -/
theorem exec_blind (i : Instr) :
    ∃ t u, exec i s = .next t ∧ exec i (setPState p s) = .next u ∧ BlindToPState p s t u := by
  cases busy : s.busy with
  | true => exact ⟨_, _, exec_busy i busy, exec_busy i busy, raiseException_blind ..⟩
  | false =>
    cases limits : i.wellFormed s.cfg with
    | false => exact ⟨_, _, exec_refuses busy limits, exec_refuses busy limits, raiseException_blind ..⟩
    | true =>
      exact ⟨_, _, exec_accepts busy limits, exec_accepts busy limits, startOf_blind p { s with op := i.opcode } i⟩

end

/-- Settles O29: issuing and stepping write PSTATE or keep it, and read it nowhere. -/
theorem noCommandReadsPstate : Obligations.NoCommandReadsPstate := by
  refine fun s p => ⟨fun i => ?_, (sequencerStep_blind p s).exists_pstate⟩
  obtain ⟨t, u, answer, answer', blind⟩ := exec_blind p s i
  obtain ⟨q, rfl, written⟩ := blind.exists_pstate
  exact ⟨t, q, answer, answer', written⟩

end Sys2Proof.Machine

/-! The family 43_discovery, single attempts: CHKBCC and UIDEQ finish as they are accepted (R188 to R190), ISPRES and
GETUID are one exchange and a verdict on what it received (R181 to R183). -/

namespace Sys2Proof.Machine

/-! The block check character, CHKBCC and UIDEQ. -/

/-- The XOR of the five bytes of a UID. -/
def uidParity (u : Vector Byte 5) : Byte := u[0] ^^^ u[1] ^^^ u[2] ^^^ u[3] ^^^ u[4]

/-- A UID is valid when its five bytes cancel (R188). -/
theorem uidValid_iff (u : Vector Byte 5) : uidValid u = true ↔ uidParity u = 0 :=
  beq_iff_eq.trans (eq_comm.trans BitVec.xor_eq_zero_iff.symm)

/-- Bits inverted in one byte are inverted in the XOR of the five. -/
theorem uidParity_set (u : Vector Byte 5) (i : Nat) (hi : i < 5) (m : Byte) :
    uidParity (u.set i (u[i] ^^^ m)) = uidParity u ^^^ m := by
  match i, hi with
  | 0, _ | 1, _ | 2, _ | 3, _ | 4, _ => simp [uidParity]; ac_rfl

/-- Settles O53: the five bytes of a valid UID cancel, and with one bit inverted that bit is left. -/
theorem bccDetectsSingleBitErrors : Obligations.BccDetectsSingleBitErrors := by
  intro u i b hi hb valid
  have bit : ((1 <<< b : Nat) : Byte) ≠ 0 := by interval_cases b <;> decide
  rwa [← Bool.not_eq_true, uidValid_iff, uidParity_set, (uidValid_iff u).mp valid, BitVec.ofNat_eq_ofNat,
    BitVec.zero_xor]

/-- Settles O52: CHKBCC finishes as it is accepted. -/
theorem chkbccChecksTheUid : Obligations.ChkbccChecksTheUid := by
  rintro s _ free rfl
  rw [exec_accepts free rfl, startOf, finish, ← (busy_eq_false_iff s).mp free]
  rfl

theorem toList_of_four_bytes : ∀ v : Vector Byte 4, v.toList = [v[0], v[1], v[2], v[3]]
  | ⟨⟨[_, _, _, _]⟩, _⟩ => rfl

theorem take_four_of_five_bytes : ∀ v : Vector Byte 5, v.toList.take 4 = [v[0], v[1], v[2], v[3]]
  | ⟨⟨[_, _, _, _, _]⟩, _⟩ => rfl

/-- The comparison of R190, as one of byte lists. -/
theorem uidMatches_eq_decide (s : State) : uidMatches s = decide (s.uid.toList.take 4 = s.cmpuid.toList) := by
  rw [take_four_of_five_bytes, toList_of_four_bytes]
  simp [uidMatches, Bool.beq_eq_decide_eq, Bool.and_assoc]

/-- Settles O54: UIDEQ finishes as it is accepted. -/
theorem uideqComparesFourBytes : Obligations.UideqComparesFourBytes := by
  intro s free
  rw [exec_accepts free rfl, ← uidMatches_eq_decide, startOf, finish, ← (busy_eq_false_iff s).mp free]
  rfl

/-! ISPRES and GETUID. -/

/-- Settles O47: ISPRES is one exchange, after which it finds a card or not. -/
theorem ispresReportsPresence : Obligations.IspresReportsPresence := by
  rintro x ys s _ ready fits answers rfl _ rfl
  have idle := State.ready_idle ready
  have run := frame_run x s.cfg.framingReq [s.cfg.piccReq] .ispres ys { s with op := 0x30 } idle
    (configOk_pollMax ready.1) answers fits
  rw [ite_not]
  exact completes_of_finish (i := .ispres) ready run idle rfl

/-- GETUID's status (R182, R183), with the block check written out. -/
theorem getuidStatus_eq (c : Status) (s : State) : getuidStatus c s =
    if c ≠ .ok then c
    else if s.rxlen ≠ 5 then .bccError
    else if s.uid[4] ≠ s.uid[0] ^^^ s.uid[1] ^^^ s.uid[2] ^^^ s.uid[3] then .bccError
    else .ok := by
  simp only [getuidStatus, uidValid, beq_iff_eq, ite_not]
  rfl

/-- GETUID's copy right after a receive (R182). -/
theorem copyUid_receive {xs : List Byte} (h : xs.length ≤ 64) (s : State) :
    copyUid (receive xs s) = { receive xs s with uid := storeBytes (xs.take 5) s.uid } :=
  copyUid_received rfl rfl h

/-- Settles O48: GETUID is one exchange, whose first five bytes are copied and judged. -/
theorem getuidChecksTheUid : Obligations.GetuidChecksTheUid := by
  rintro x ys s _ _ ready fits answers rfl rfl _ rfl
  have idle := State.ready_idle ready
  have run := frame_run x s.cfg.framingFull [s.cfg.selCl1, s.cfg.nvbAnticoll] .getuid ys
    (setPState .uidPending { s with op := 0x31 }) idle (configOk_pollMax ready.1) answers fits
  rw [communicateReturns, getuidReturned, copyUid_receive (ComRun.data_length_le fits), getuidState,
    getuidStatus_eq] at run
  exact completes_of_finish (i := .getuid) ready run idle rfl

end Sys2Proof.Machine

/-! The family 43_discovery, WAITUID (R184, R291). An attempt is the exchange of an ISPRES body and, if that finds a card,
of a GETUID body. It writes RXBUF, RXLEN, UID, PSTATE and the history (`State.attempted`, `State.moved`); of attempts in a
row the last one's RXLEN, UID and PSTATE remain, so a row of failures is summed up in one such state. -/

namespace Sys2Proof.Machine

/-- A list as long as the buffer replaces it, whatever it held. -/
theorem storeBytes_overwrites {n : Nat} {xs : List Byte} (h : n ≤ xs.length) (b c : Vector Byte n) :
    storeBytes xs b = storeBytes xs c := by
  ext i hi
  simp [List.getElem?_eq_getElem (hi.trans_le h)]

theorem ComRun.data_length_of_readsUid {y : ComRun} {cfg : Config} (h : y.readsUid cfg) : y.data.length = 5 := by
  obtain ⟨_, _, _, _, _, data⟩ := h
  rw [data]
  rfl

/-- The state with what WAITUID writes while it runs (R184) replaced: RXBUF, RXLEN, UID and PSTATE. -/
def State.attempted (s : State) (b : Vector Byte 64) (n : Nat) (u : Vector Byte 5) (q : PState) : State :=
  { s with rxbuf := b, rxlen := n, uid := u, pstate := q }

/-- Of two attempts in a row the second one's writes remain, and both histories. -/
theorem State.attempted_twice (s : State) (b b' : Vector Byte 64) (n n' : Nat) (u u' : Vector Byte 5) (q q' : PState)
    (es fs : List BusEvent) (xs ys : List Byte) :
    (((s.attempted b n u q).moved es xs).attempted b' n' u' q').moved fs ys =
      (s.attempted b' n' u' q').moved (es ++ fs) ys :=
  (s.attempted b' n' u' q').moved_moved es fs xs ys

section
variable {x y : ComRun} {ys : List Byte} {s : State} (idle : s.pos = .idle) (budget : s.cfg.pollMax ≠ 0)
include idle budget

/-- The exchange of WAITUID's ISPRES body (R184). -/
theorem request_run (fits : x.fitsFrame s.cfg) (answers : s.answers = x.frameAnswers s.cfg ++ ys) :
    sequencerSteps (x.requestEvents s.cfg).length (startIspres .waitPresent s) =
      waitPresentReturned (x.status s.cfg) (receive x.data (s.moved (x.requestEvents s.cfg) ys)) :=
  frame_run x s.cfg.framingReq [s.cfg.piccReq] .waitPresent ys s idle budget answers fits

/-- The exchange of WAITUID's GETUID body (R184). -/
theorem anticoll_run (fits : y.fitsFrame s.cfg) (answers : s.answers = y.frameAnswers s.cfg ++ ys) :
    sequencerSteps (y.anticollEvents s.cfg).length (startGetuid .waitUid s) =
      waitUidReturned (y.status s.cfg) ((s.attempted (storeBytes y.data s.rxbuf) y.data.length s.uid
        .uidPending).moved (y.anticollEvents s.cfg) ys) :=
  frame_run y s.cfg.framingFull [s.cfg.selCl1, s.cfg.nvbAnticoll] .waitUid ys (setPState .uidPending s) idle budget
    answers fits

/-- The exchanges of an attempt of WAITUID that finds a card (R184). -/
theorem found_run (fits : x.fitsFrame s.cfg) (present : x.present s.cfg) (fits' : y.fitsFrame s.cfg)
    (answers : s.answers = x.frameAnswers s.cfg ++ (y.frameAnswers s.cfg ++ ys)) :
    sequencerSteps (x.requestEvents s.cfg ++ y.anticollEvents s.cfg).length (startIspres .waitPresent s) =
      waitUidReturned (y.status s.cfg) ((s.attempted (storeBytes y.data (storeBytes x.data s.rxbuf)) y.data.length
        s.uid .uidPending).moved (x.requestEvents s.cfg ++ y.anticollEvents s.cfg) ys) := by
  have request := (request_run idle budget fits answers).trans (waitPresent_found _ (by rfl) (by rfl) present)
  have anticoll := anticoll_run (s := (s.attempted (storeBytes x.data s.rxbuf) x.data.length s.uid .requested).moved
    (x.requestEvents s.cfg) (y.frameAnswers s.cfg ++ ys)) idle budget fits' rfl
  rw [State.attempted_twice] at anticoll
  rw [List.length_append]
  exact sequencerSteps_trans request anticoll

/-- A failed attempt of WAITUID leaves it at the next (R184). -/
theorem attempt_run {a : WaitAttempt} (fits : a.fits s.cfg) (answers : s.answers = a.answers s.cfg ++ ys) :
    ∃ n u, sequencerSteps (a.events s.cfg).length (startIspres .waitPresent s) =
      startIspres .waitPresent ((s.attempted (a.received s.rxbuf) n u .idle).moved (a.events s.cfg) ys) := by
  cases a with
  | absent x =>
    obtain ⟨fits, absent⟩ := fits
    exact ⟨_, _, (request_run idle budget fits answers).trans (waitPresent_absent _ (by rfl) (by rfl) absent)⟩
  | unread x y =>
    obtain ⟨fits, present, fits', unread⟩ := fits
    have run := found_run idle budget fits present fits' (answers.trans (List.append_assoc ..))
    exact ⟨_, _, run.trans
      (waitUid_unread _ (by rfl) (ComRun.data_length_le fits') (by rfl) (by rfl) unread)⟩

/-- An attempt of WAITUID that reads a valid UID finishes it (R184). -/
theorem read_run (fits : x.fitsFrame s.cfg) (present : x.present s.cfg) (fits' : y.fitsFrame s.cfg)
    (reads : y.readsUid s.cfg) (answers : s.answers = x.frameAnswers s.cfg ++ (y.frameAnswers s.cfg ++ ys)) :
    sequencerSteps (x.requestEvents s.cfg ++ y.anticollEvents s.cfg).length (startIspres .waitPresent s) =
      finish .ok true ((s.attempted (storeBytes y.data (storeBytes x.data s.rxbuf)) 5 (storeBytes y.data s.uid)
        .uidAcquired).moved (x.requestEvents s.cfg ++ y.anticollEvents s.cfg) ys) := by
  have run := found_run idle budget fits present fits' answers
  rw [waitUid_read _ (by rfl) (ComRun.data_length_le fits') (by rfl) (by rfl) reads, storeBytes_take _ _ _ le_rfl,
    ComRun.data_length_of_readsUid reads] at run
  exact run

end

/-- Failed attempts in a row leave WAITUID at the next one (R184, R291). -/
theorem attempts_run {attempts : List WaitAttempt} {s : State} (idle : s.pos = .idle) (budget : s.cfg.pollMax ≠ 0)
    {ys : List Byte} (fits : ∀ a ∈ attempts, a.fits s.cfg)
    (answers : s.answers = attempts.flatMap (WaitAttempt.answers s.cfg) ++ ys) :
    ∃ n u q, (attempts ≠ [] → q = .idle) ∧
      sequencerSteps (attempts.flatMap (WaitAttempt.events s.cfg)).length (startIspres .waitPresent s) =
        startIspres .waitPresent ((s.attempted (attempts.foldl WaitAttempt.received s.rxbuf) n u q).moved
          (attempts.flatMap (WaitAttempt.events s.cfg)) ys) := by
  induction attempts using List.reverseRecOn generalizing ys with
  | nil =>
    obtain rfl : s.answers = ys := answers
    exact ⟨s.rxlen, s.uid, s.pstate, fun h => absurd rfl h, congrArg (startIspres .waitPresent) s.moved_self.symm⟩
  | append_singleton attempts a ih =>
    obtain ⟨n, u, q, -, run⟩ := ih (ys := a.answers s.cfg ++ ys) (fun b hb => fits b (by simp [hb]))
      (by simpa using answers)
    obtain ⟨n', u', last⟩ := attempt_run (s := (s.attempted (attempts.foldl WaitAttempt.received s.rxbuf) n u q).moved
      (attempts.flatMap (WaitAttempt.events s.cfg)) (a.answers s.cfg ++ ys)) idle budget (fits a (by simp)) rfl
    refine ⟨n', u', .idle, fun _ => rfl, ?_⟩
    rw [State.attempted_twice] at last
    rw [List.flatMap_append, List.flatMap_singleton, List.foldl_append, List.length_append]
    exact sequencerSteps_trans run last

/-- Settles O50: WAITUID is at its next attempt after any number of failures. -/
theorem waituidRetriesWithoutBound : Obligations.WaituidRetriesWithoutBound := by
  intro attempts ys s ready fits answers
  obtain ⟨n, u, q, pstate, run⟩ := attempts_run (s := { s with op := 0x32 }) (State.ready_idle ready)
    (configOk_pollMax ready.1) fits answers
  obtain ⟨s1, accepted, ran⟩ := completes_of_start (i := .waituid) ready rfl run
  exact ⟨s1, _, accepted, ran, rfl, rfl, rfl, rfl, pstate, rfl, rfl⟩

/-- Settles O49: after the failed attempts, one that reads a valid UID finishes WAITUID. -/
theorem waituidFinishesOnAValidUid : Obligations.WaituidFinishesOnAValidUid := by
  rintro attempts x y ys s ready fits fitsX present fitsY reads answers _ rfl _ rfl
  have idle := State.ready_idle ready
  have budget := configOk_pollMax ready.1
  have five := ComRun.data_length_of_readsUid reads
  obtain ⟨n, u, q, -, failures⟩ := attempts_run (s := { s with op := 0x32 }) idle budget fits
    (ys := x.frameAnswers s.cfg ++ (y.frameAnswers s.cfg ++ ys)) (by simpa using answers)
  have last := read_run (s := (State.attempted { s with op := 0x32 } (attempts.foldl WaitAttempt.received s.rxbuf) n u
    q).moved (attempts.flatMap (WaitAttempt.events s.cfg)) (x.frameAnswers s.cfg ++ (y.frameAnswers s.cfg ++ ys)))
    idle budget fitsX present fitsY reads rfl
  rw [State.attempted_twice, storeBytes_overwrites five.ge _ s.uid] at last
  have run := sequencerSteps_trans failures last
  rw [← List.length_append, ← List.append_assoc] at run
  refine ⟨completes_of_finish (i := .waituid) ready run idle rfl, ?_⟩
  rw [firstBytes_storeBytes _ _ _ five.ge (by decide), ← five, List.take_length]

end Sys2Proof.Machine

/-! The family 43_discovery, SELECT (R185, R186, R230, R234): the CRC of the frame, the exchange, and the CRC of the
response, each the procedure's own run. -/

namespace Sys2Proof.Machine

theorem CrcRun.status_eq_timeOut {x : CrcRun} (h : x.status ≠ .ok) : x.status = .timeOut := by
  obtain ⟨misses, _ | ⟨irq, hi, lo⟩⟩ := x
  · rfl
  · exact absurd rfl h

/-- CRCRES is unchanged on TimeOut (R230). -/
theorem CrcRun.result_of_failed {x : CrcRun} (h : x.status ≠ .ok) (old : Vector Byte 2) : x.result old = old := by
  obtain ⟨misses, _ | ⟨irq, hi, lo⟩⟩ := x
  · rfl
  · exact absurd rfl h

/-- A result replaces whatever CRCRES held (R231). -/
theorem CrcRun.result_of_ready {x : CrcRun} (h : x.status = .ok) (old new : Vector Byte 2) :
    x.result old = x.result new := by
  obtain ⟨misses, _ | ⟨irq, hi, lo⟩⟩ := x
  · exact nomatch h
  · rfl

/-- The bytes of which SELECT has the CRC computed: the SAK alone (R186). -/
theorem firstBytes_one (b : Vector Byte 64) : firstBytes 1 b = [b[0]] := by
  refine List.ext_getElem (by simp) fun i h _ => ?_
  obtain rfl : i = 0 := by simp at h; exact h
  simp [firstBytes]

/-- SELECT when its exchange fails or brings a wrong length (R186). -/
theorem selectReturned_fails {c : Status} {s : State} (h : c ≠ .ok ∨ s.rxlen ≠ s.cfg.sakLen) :
    selectReturned c s = failCard (if c ≠ .ok then c else .generalStatusError) s := by
  unfold selectReturned
  split_ifs with hc hl
  · rfl
  · rfl
  · exact absurd h (by simp [hc, hl])

/-- SELECT's end (R186): PSTATE and CODE by the status of verifyCRC. -/
theorem selectVerified_eq (c : Status) (s : State) :
    selectVerified c s = finish c (isOk c) (setPState (if c = .ok then .selected else .idle) s) := by
  unfold selectVerified
  split_ifs with h
  · rw [h]; rfl
  · rw [← isOk_of_ne h]; rfl

/-- SELECT with a response of the right length (R186). -/
theorem selectReturned_responds {s : State} (h : s.rxlen = s.cfg.sakLen) :
    selectReturned .ok s = startVerifyCRC 1 .select s := by simp [selectReturned, h]

/-- verifyCRC's verdict does not depend on what CRCRES held before the calculation (R234). -/
theorem CrcRun.verdict_congr (z : CrcRun) (old new v : Vector Byte 2) :
    (if z.status ≠ .ok then Status.timeOut else if z.result old = v then .ok else .crcError) =
      if z.status ≠ .ok then Status.timeOut else if z.result new = v then .ok else .crcError := by
  by_cases ready : z.status = .ok
  · rw [CrcRun.result_of_ready ready old new]
  · rw [if_pos ready, if_pos ready]

/-- The events of SELECT up to the end of its exchange (R185, R186). -/
def selectEvents (x : CrcRun) (y : ComRun) (s : State) : List BusEvent :=
  x.events s.cfg (selectFrame s.cfg s.uid) ++
    y.frameEvents s.cfg s.cfg.framingFull (selectFrame s.cfg s.uid ++ (x.result s.crcres).toList)

/-- The state in which SELECT has its response, with the answers `ys` left (R186). -/
def selectAnswered (x : CrcRun) (y : ComRun) (ys : List Byte) (s : State) : State :=
  receive y.data ((State.moved { s with op := 0x33 } (selectEvents x y s) ys).withCrc x)

/-- SELECT from its start to the end of its exchange, when the frame's CRC is ready in time (R186). -/
theorem select_exchanges {x : CrcRun} {y : ComRun} {ys : List Byte} {s : State} (ready : s.ready) (fits : x.fits s.cfg)
    (computed : x.status = .ok) (fits' : y.fitsFrame s.cfg)
    (answers : s.answers = x.answers ++ (y.frameAnswers s.cfg ++ ys)) :
    sequencerSteps (selectEvents x y s).length (startOf .select { s with op := 0x33 }) =
      selectReturned (y.status s.cfg) (selectAnswered x y ys s) := by
  rw [selectEvents, List.length_append]
  exact send_run x y (selectFrame s.cfg s.uid) .select ys { s with op := 0x33 } (State.ready_idle ready)
    (configOk_pollMax ready.1) (configOk_crcPollMax ready.1) answers fits computed fits'

/-- Settles O51: SELECT ends where its first CRC, its exchange, the length or its second CRC fails, or passes them all. -/
theorem selectSelectsTheCard : Obligations.SelectSelectsTheCard := by
  intro f x ys s ready fits frame
  obtain rfl : f = selectFrame s.cfg s.uid := frame
  have idle := State.ready_idle ready
  have crcBudget := configOk_crcPollMax ready.1
  refine ⟨fun failed answers => ?_, fun computed y es b fitsY events buffer => ?_⟩
  · have run := crc_run x (selectFrame s.cfg s.uid) (.send (selectFrame s.cfg s.uid) .select) ys { s with op := 0x33 }
      idle crcBudget answers fits
    rw [CrcRun.status_eq_timeOut failed, State.withCrc, CrcRun.result_of_failed failed] at run
    exact completes_of_finish (i := .select) ready run idle rfl
  obtain rfl : es = selectEvents x y s := events
  subst buffer
  refine ⟨fun failed answers => ?_, fun ok length z c fitsZ answers judged => ?_⟩
  · have exchange := select_exchanges ready fits computed fitsY (answers.trans (List.append_assoc ..))
    rw [selectReturned_fails failed] at exchange
    exact completes_of_finish ready exchange idle rfl
  · have exchange := select_exchanges ready fits computed fitsY (ys := z.answers ++ ys)
      (answers.trans (by simp only [List.append_assoc]))
    rw [ok, selectReturned_responds length] at exchange
    have run := sequencerSteps_trans exchange
      (verify_run z 1 .select ys (selectAnswered x y (z.answers ++ ys) s) idle crcBudget rfl fitsZ (by decide))
    rw [firstBytes_one, verifyReturns, selectVerified_eq] at run
    rw [z.verdict_congr _ (x.result s.crcres)] at judged
    subst judged
    exact completes_of_finish (i := .select) ready run idle rfl

end Sys2Proof.Machine

/-! The family 44_block_auth: AUTH is one exchange and one register read (R210); RDBLK and WRBLK send frames with their
CRC (R211 to R213), and such a send ends in one of two ways, said once for all of them: its CRC times out
(`send_timesOut`), or its exchange returns (`send_returns`). -/

namespace Sys2Proof.Machine

/-! AUTH. -/

/-- The operand limit of AUTH (R92), kept. -/
theorem authLimit_eq_true {cfg : Config} {variant : Byte} (h : variant = cfg.authKeyA ∨ variant = cfg.authKeyB) :
    isAuthVariant cfg variant = true := by
  simpa [isAuthVariant] using h

/-- The operand limit of AUTH (R92), violated. -/
theorem authLimit_eq_false {cfg : Config} {variant : Byte} (hA : variant ≠ cfg.authKeyA)
    (hB : variant ≠ cfg.authKeyB) : isAuthVariant cfg variant = false := by
  simp [isAuthVariant, hA, hB]

/-- AUTH's frame (R210), with the bytes of UID written out. -/
theorem authFrame_eq (variant block : Byte) (s : State) : authFrame variant block s =
    [variant, block] ++ s.key.toList ++ [s.uid[0], s.uid[1], s.uid[2], s.uid[3]] := by
  rw [authFrame, firstBytes, take_four_of_five_bytes]

/-- AUTH when its exchange fails (R210): REG_AUTHSTATUS is not read. -/
theorem authReturned_of_failed {c : Status} (h : c ≠ .ok) (s : State) : authReturned c s = failCard c s := by
  rw [authReturned, if_neg h, authEnd, if_neg h, ← isOk_of_ne h, failCard]

/-- AUTH's end by the authenticated-state bit (R210). -/
theorem authAnswered_eq (v : Byte) (s : State) : authAnswered v s =
    finish (if anyBit v s.cfg.mCrypto1On then .ok else .generalStatusError) (anyBit v s.cfg.mCrypto1On)
      (setPState (if anyBit v s.cfg.mCrypto1On then .authenticated else .idle) s) := by
  unfold authAnswered
  cases anyBit v s.cfg.mCrypto1On <;> rfl

/-- AUTH after an Ok exchange (R210): one read, of REG_AUTHSTATUS. -/
theorem authReturned_ok_run {v : Byte} {ys : List Byte} {s : State} (idle : s.pos = .idle)
    (answers : s.answers = v :: ys) : sequencerSteps 1 (authReturned .ok s) =
      authAnswered v (s.moved [.r s.cfg.regAuthStatus v] ys) :=
  sequencerStep_scripted idle s.cfg.regAuthStatus .authStatus answers

/-- AUTH from its start to the end of its exchange (R210). -/
theorem auth_exchanges {x : ComRun} {variant block : Byte} {ys : List Byte} {es : List BusEvent} {s : State}
    (ready : s.ready) (fits : x.fits s.cfg s.cfg.cmdMfAuthent 64)
    (answers : s.answers = x.answers s.cfg s.cfg.cmdMfAuthent ++ ys)
    (events : es = x.events s.cfg s.cfg.cmdMfAuthent
      ([variant, block] ++ s.key.toList ++ [s.uid[0], s.uid[1], s.uid[2], s.uid[3]])) :
    sequencerSteps es.length (startOf (.auth variant block) { s with op := 0x40 }) =
      authReturned (x.status s.cfg) (receive x.data (State.moved { s with op := 0x40 } es ys)) := by
  rw [events, ← authFrame_eq variant block s]
  exact communicate_run x s.cfg.cmdMfAuthent (authFrame variant block s) 64 .auth ys { s with op := 0x40 }
    (State.ready_idle ready) (configOk_pollMax ready.1) answers fits

/-- Settles O55: AUTH ends with its exchange, or with the read of REG_AUTHSTATUS that follows an Ok one. -/
theorem authReportsTheCryptoUnit : Obligations.AuthReportsTheCryptoUnit := by
  refine fun variant block s => ⟨fun x ys es limit ready fits events => ?_,
    fun hA hB free => exec_refuses free (authLimit_eq_false hA hB)⟩
  have idle := State.ready_idle ready
  refine ⟨fun failed answers => ?_, fun ok v on answers bit => ?_⟩
  · have run := auth_exchanges ready fits answers events
    rw [authReturned_of_failed failed] at run
    exact completes_of_finish ready run idle (authLimit_eq_true limit)
  · have exchange := auth_exchanges ready fits answers events
    rw [ok] at exchange
    have run := sequencerSteps_trans exchange (authReturned_ok_run idle rfl)
    obtain rfl : anyBit v s.cfg.mCrypto1On = on := by simp [anyBit, bit, bne, Bool.beq_eq_decide_eq]
    rw [authAnswered_eq, State.moved_cfg] at run
    exact completes_of_finish ready run idle (authLimit_eq_true limit)

/-! Frames sent with their CRC. -/

/-- The events of a frame sent with its CRC, when the CRC is ready in time (R211). -/
def sentEvents (x : CrcRun) (y : ComRun) (body : List Byte) (cfg : Config) (old : Vector Byte 2) : List BusEvent :=
  x.events cfg body ++ y.frameEvents cfg cfg.framingFull (body ++ (x.result old).toList)

/-- They do not depend on what CRCRES held before (R231). -/
theorem sentEvents_congr {x : CrcRun} (computed : x.status = .ok) (y : ComRun) (body : List Byte) (cfg : Config)
    (old new : Vector Byte 2) : sentEvents x y body cfg old = sentEvents x y body cfg new := by
  rw [sentEvents, CrcRun.result_of_ready computed old new, sentEvents]

/-- The state in which the exchange of a frame sent with its CRC returns, with the answers `ys` left (R211). -/
def sentState (x : CrcRun) (y : ComRun) (body ys : List Byte) (s : State) : State :=
  receive y.data ((s.moved (sentEvents x y body s.cfg s.crcres) ys).withCrc x)

section
variable {x : CrcRun} {body ys : List Byte} {s : State} (idle : s.pos = .idle) (legal : configOk s.cfg = true)
  (fits : x.fits s.cfg) (caller : CommCaller)
include idle legal fits

/-- A frame whose CRC is not ready in time is not sent (R211). -/
theorem send_timesOut (failed : x.status ≠ .ok) (answers : s.answers = x.answers ++ ys) :
    sequencerSteps (x.events s.cfg body).length (startSendWithCRC body caller s) =
      communicateReturns caller .timeOut (s.moved (x.events s.cfg body) ys) := by
  have run := crc_run x body (.send body caller) ys s idle (configOk_crcPollMax legal) answers fits
  rwa [CrcRun.status_eq_timeOut failed, State.withCrc, CrcRun.result_of_failed failed] at run

/-- A frame whose CRC is ready in time is sent, and its exchange returns (R211). -/
theorem send_returns {y : ComRun} (computed : x.status = .ok) (fits' : y.fitsFrame s.cfg)
    (answers : s.answers = x.answers ++ y.frameAnswers s.cfg ++ ys) :
    sequencerSteps (sentEvents x y body s.cfg s.crcres).length (startSendWithCRC body caller s) =
      communicateReturns caller (y.status s.cfg) (sentState x y body ys s) := by
  rw [sentEvents, List.length_append]
  exact send_run x y body caller ys s idle (configOk_pollMax legal) (configOk_crcPollMax legal)
    (answers.trans (List.append_assoc ..)) fits computed fits'

end

/-- How RDBLK and WRBLK finish (R212, R213): PSTATE is Idle, or on Ok what it was. -/
def endCard (c : Status) (s : State) : State :=
  finish c (isOk c) (setPState (if c = .ok then s.pstate else .idle) s)

theorem endCard_ok (s : State) : endCard .ok s = finish .ok true s := rfl

theorem endCard_of_failed {c : Status} (h : c ≠ .ok) (s : State) : endCard c s = failCard c s := by
  rw [endCard, if_neg h, ← isOk_of_ne h, failCard]

/-! RDBLK. -/

/-- RDBLK when its exchange fails or brings a wrong length (R212). -/
theorem rdblkReturned_of_failed {c : Status} {s : State} (h : c ≠ .ok ∨ s.rxlen ≠ s.cfg.readRespLen) :
    rdblkReturned c s = failCard (if c ≠ .ok then c else .generalStatusError) s := by
  unfold rdblkReturned
  split_ifs with hc hl
  · rfl
  · rfl
  · exact absurd h (by simp [hc, hl])

/-- RDBLK with a response of the right length (R212). -/
theorem rdblkReturned_responds {s : State} (h : s.rxlen = s.cfg.readRespLen) :
    rdblkReturned .ok s = startVerifyCRC 16 .rdblk s := by simp [rdblkReturned, h]

/-- RDBLK's end, by the status of verifyCRC (R212). -/
theorem rdblkVerified_eq (c : Status) (s : State) : rdblkVerified c s = endCard c s := by
  unfold rdblkVerified
  split_ifs with h
  · rw [h, endCard_ok]
  · rw [endCard_of_failed h]

/-- Settles O56: RDBLK ends where its first CRC, its exchange, the length or its second CRC fails, or passes them all. -/
theorem rdblkReadsABlock : Obligations.RdblkReadsABlock := by
  intro block x ys s ready fits
  have idle := State.ready_idle ready
  refine ⟨fun failed answers => ?_, fun computed y es b fitsY events buffer => ?_⟩
  · have run := send_timesOut (body := [s.cfg.mfRead, block]) (s := { s with op := 0x41 }) idle ready.1 fits .rdblk
      failed answers
    exact completes_of_finish (i := .rdblk block) ready run idle rfl
  obtain rfl : es = sentEvents x y [s.cfg.mfRead, block] s.cfg s.crcres := events
  subst buffer
  have exchange := fun rest => send_returns (body := [s.cfg.mfRead, block]) (ys := rest) (s := { s with op := 0x41 })
    idle ready.1 fits .rdblk computed fitsY
  refine ⟨fun failed answers => ?_, fun ok length z c fitsZ answers judged => ?_⟩
  · have run := exchange ys answers
    rw [communicateReturns, rdblkReturned_of_failed failed] at run
    exact completes_of_finish (i := .rdblk block) ready run idle rfl
  · have response := exchange (z.answers ++ ys) (answers.trans (List.append_assoc ..))
    rw [communicateReturns, ok, rdblkReturned_responds length] at response
    have run := sequencerSteps_trans response
      (verify_run z 16 .rdblk ys (sentState x y [s.cfg.mfRead, block] (z.answers ++ ys) { s with op := 0x41 }) idle
        (configOk_crcPollMax ready.1) rfl fitsZ (by decide))
    rw [verifyReturns, rdblkVerified_eq] at run
    rw [z.verdict_congr _ (x.result s.crcres)] at judged
    subst judged
    exact completes_of_finish (i := .rdblk block) ready run idle rfl

/-! WRBLK. -/

/-- A response that acknowledges (R213): one byte whose low nibble is MF_ACK. -/
def acknowledges (cfg : Config) (xs : List Byte) : Prop := ∃ d, xs = [d] ∧ d &&& 0x0F = cfg.mfAck.setWidth 8

/-- The machine's test is for an acknowledge, right after a receive (R213). -/
theorem isAck_receive_iff (xs : List Byte) (s : State) : isAck (receive xs s) = true ↔ acknowledges s.cfg xs := by
  match xs with
  | [] => simp [isAck, acknowledges]
  | [d] => simp [isAck, acknowledges]
  | _ :: _ :: _ => simp [isAck, acknowledges]

/-- WRBLK when its command frame's exchange fails or is not acknowledged (R213): the data are never sent. -/
theorem wrblkCommandReturned_of_failed {c : Status} {xs : List Byte} {s : State}
    (h : c ≠ .ok ∨ ¬ acknowledges s.cfg xs) : wrblkCommandReturned c (receive xs s) =
      failCard (if c ≠ .ok then c else .writeError) (receive xs s) := by
  rw [← isAck_receive_iff] at h
  unfold wrblkCommandReturned
  split_ifs with hc hack
  · rfl
  · exact absurd h (by simp [hc, hack])
  · rfl

/-- WRBLK with its command frame acknowledged (R213): the data frame. -/
theorem wrblkCommandReturned_acknowledged {xs : List Byte} {s : State} (h : acknowledges s.cfg xs) :
    wrblkCommandReturned .ok (receive xs s) =
      startSendWithCRC (firstBytes 16 s.txbuf) .wrblkData (receive xs s) := by
  simp [wrblkCommandReturned, (isAck_receive_iff xs s).mpr h]

/-- WRBLK's end, by its data frame's exchange (R213): Ok only when that one, too, is acknowledged. -/
theorem wrblkDataReturned_eq {c c' : Status} {xs : List Byte} {s : State} (failed : c ≠ .ok → c' = c)
    (nak : c = .ok → ¬ acknowledges s.cfg xs → c' = .writeError) (ack : c = .ok → acknowledges s.cfg xs → c' = .ok) :
    wrblkDataReturned c (receive xs s) = endCard c' (receive xs s) := by
  rw [← isAck_receive_iff] at nak ack
  unfold wrblkDataReturned
  split_ifs with hc hack
  · rw [failed hc, endCard_of_failed hc]
  · rw [ack (not_not.mp hc) hack, endCard_ok]
  · rw [nak (not_not.mp hc) hack, endCard_of_failed (by decide)]

/-- WRBLK from its start to the end of its command frame's exchange (R213). -/
theorem wrblk_sendsCommand {x : CrcRun} {y : ComRun} {ys : List Byte} {s : State} (block : Byte) (ready : s.ready)
    (fits : x.fits s.cfg) (computed : x.status = .ok) (fitsY : y.fitsFrame s.cfg)
    (answers : s.answers = x.answers ++ y.frameAnswers s.cfg ++ ys) :
    sequencerSteps (sentEvents x y [s.cfg.mfWrite, block] s.cfg s.crcres).length
        (startOf (.wrblk block) { s with op := 0x42 }) =
      wrblkCommandReturned (y.status s.cfg) (sentState x y [s.cfg.mfWrite, block] ys { s with op := 0x42 }) :=
  send_returns (s := { s with op := 0x42 }) (State.ready_idle ready) ready.1 fits .wrblkCommand computed fitsY answers

/-- WRBLK from its start to its data frame, when the command frame is acknowledged (R213). -/
theorem wrblk_sendsData {x : CrcRun} {y : ComRun} {ys : List Byte} {s : State} (block : Byte) (ready : s.ready)
    (fits : x.fits s.cfg) (computed : x.status = .ok) (fitsY : y.fitsFrame s.cfg) (ok : y.status s.cfg = .ok)
    (ack : acknowledges s.cfg y.data) (answers : s.answers = x.answers ++ y.frameAnswers s.cfg ++ ys) :
    sequencerSteps (sentEvents x y [s.cfg.mfWrite, block] s.cfg s.crcres).length
        (startOf (.wrblk block) { s with op := 0x42 }) =
      startSendWithCRC (firstBytes 16 s.txbuf) .wrblkData
        (sentState x y [s.cfg.mfWrite, block] ys { s with op := 0x42 }) := by
  rw [wrblk_sendsCommand block ready fits computed fitsY answers, ok]
  exact wrblkCommandReturned_acknowledged ack

/-- Settles O57: WRBLK ends in its command frame's send, or, that one acknowledged, in its data frame's. -/
theorem wrblkWritesABlock : Obligations.WrblkWritesABlock := by
  intro block x ys s ready fits
  have idle := State.ready_idle ready
  refine ⟨fun failed answers => ?_, fun computed y es fitsY events => ?_⟩
  · have run := send_timesOut (body := [s.cfg.mfWrite, block]) (s := { s with op := 0x42 }) idle ready.1 fits
      .wrblkCommand failed answers
    exact completes_of_finish (i := .wrblk block) ready run idle rfl
  obtain rfl : es = sentEvents x y [s.cfg.mfWrite, block] s.cfg s.crcres := events
  refine ⟨fun failed answers => ?_, fun ok d data nibble x' fs fits' events => ?_⟩
  · have run := (wrblk_sendsCommand block ready fits computed fitsY answers).trans
      (wrblkCommandReturned_of_failed failed)
    exact completes_of_finish (i := .wrblk block) ready run idle rfl
  have command := fun rest =>
    wrblk_sendsData (ys := rest) block ready fits computed fitsY ok ⟨d, data, nibble⟩
  subst events
  rw [← data]
  refine ⟨fun failed answers => ?_, fun computed' y' gs c fitsY' answers events bad nak ack => ?_⟩
  · have run := sequencerSteps_trans (command (x'.answers ++ ys) (answers.trans (List.append_assoc ..)))
      (send_timesOut (s := sentState x y [s.cfg.mfWrite, block] (x'.answers ++ ys) { s with op := 0x42 }) idle ready.1
        fits' .wrblkData failed rfl)
    rw [List.length_append, ← List.append_assoc, show 1 = y.data.length from congrArg List.length data.symm]
    exact completes_of_finish (i := .wrblk block) ready run idle rfl
  · obtain rfl : gs = sentEvents x y [s.cfg.mfWrite, block] s.cfg s.crcres ++
        sentEvents x' y' (firstBytes 16 s.txbuf) s.cfg s.crcres := events.trans (List.append_assoc ..)
    have run := (sequencerSteps_trans
      (command (x'.answers ++ y'.frameAnswers s.cfg ++ ys) (answers.trans (by simp only [List.append_assoc])))
      (send_returns (s := sentState x y [s.cfg.mfWrite, block] (x'.answers ++ y'.frameAnswers s.cfg ++ ys)
        { s with op := 0x42 }) idle ready.1 fits' .wrblkData computed' fitsY' rfl)).trans
        (wrblkDataReturned_eq bad nak ack)
    rw [List.length_append, ← List.append_assoc, sentEvents_congr computed' y' _ _ _ (x.result s.crcres),
      CrcRun.result_of_ready computed' _ (x.result s.crcres)]
    exact completes_of_finish (i := .wrblk block) ready run idle rfl

end Sys2Proof.Machine

/-! The family 45_crc: CRC (R233) is one call of calculateCRC (R230, R231), with whose status it finishes. -/

namespace Sys2Proof.Machine

/-- CRC from its start: calculateCRC returns its status, with which CRC finishes (R233). -/
theorem crcCommand_run {x : CrcRun} {n : Byte} {ys : List Byte} {s : State} (idle : s.pos = .idle)
    (budget : s.cfg.crcPollMax ≠ 0) (fits : x.fits s.cfg) (answers : s.answers = x.answers ++ ys) :
    sequencerSteps (x.events s.cfg (firstBytes n.toNat s.txbuf)).length (startOf (.crc n) s) =
      finish x.status (isOk x.status) ((s.moved (x.events s.cfg (firstBytes n.toNat s.txbuf)) ys).withCrc x) :=
  crc_run x _ .crc ys s idle budget answers fits

/-- Settles O58: CRC is one CRC calculation over TXBUF, and a refusal is a length above 64. -/
theorem crcReadsTheCoprocessor : Obligations.CrcReadsTheCoprocessor := by
  refine fun n s => ⟨?_, fun long free => exec_refuses free (decide_eq_false long.not_ge)⟩
  rintro x ys _ short ready fits answers rfl
  have idle := State.ready_idle ready
  exact completes_of_finish ready
    (crcCommand_run (s := { s with op := 0x50 }) idle (configOk_crcPollMax ready.1) fits answers) idle
    (decide_eq_true short)

end Sys2Proof.Machine

/-! The family 60_exceptions: the host-port exceptions (R250 to R255). Raising one is an update of EXC alone
(`raiseException_eq`), so each refusal is known once it is known which cause it raises, and nothing that accepts a
command or stores a byte reads EXC. -/

namespace Sys2Proof.Machine

/-- Settles O12: the two branches of exception entry are one update of EXC. -/
theorem exceptionRecordKeepsFirst : Obligations.ExceptionRecordKeepsFirst := raiseException_eq

/-! Refusals. -/

/-- A refused command as an update of EXC (R251, R253). -/
theorem exec_refuses_exc {i : Instr} {s : State} (hb : s.busy = false) (hw : i.wellFormed s.cfg = false) :
    exec i s = .next { s with exc := if s.exc = none then some .badOperand else s.exc } := by
  rw [exec_refuses hb hw, raiseException_eq]

/-- Settles O9: each clause puts one operand outside its command's limits. -/
theorem badOperandOutsideLimits : Obligations.BadOperandOutsideLimits := by
  refine fun s a b c hb => ⟨fun ha i hi => exec_refuses_exc hb ?_, fun hn i hi => exec_refuses_exc hb ?_,
    fun h => exec_refuses_exc hb (commLimits_eq_false h), fun h => exec_refuses_exc hb (decide_eq_false h.not_ge),
    fun hA hB => exec_refuses_exc hb (authLimit_eq_false hA hB)⟩
  · have register := isChipAddr_eq_false ha
    have counted := countedLimits_eq_false (n := b) (.inl ha)
    simp only [List.mem_cons, List.not_mem_nil, or_false] at hi
    obtain rfl | rfl | rfl | rfl | rfl | rfl := hi
    exacts [register, counted, register, counted, register, register]
  · have counted := countedLimits_eq_false (a := a) (.inr hn)
    simp only [List.mem_cons, List.not_mem_nil, or_false] at hi
    obtain rfl | rfl | rfl := hi
    exacts [counted, counted, decide_eq_false hn.not_ge]

/-- An illegal opcode written to OP while no command runs, whatever the operands (R250). -/
theorem writeOp_illegal {v : Byte} {s : State} (hb : s.busy = false) (illegal : isIllegalOp v) :
    writeOp v s = .next (raiseException .illegalOpcode s) := by
  obtain ⟨refused, -⟩ := decodeFields_total v s.argA s.argB s.argC
  simp [writeOp, hb, issuedBytes, decodeBytes, refused illegal]

/-- Settles O11: busy is tested before anything else, and only what decodes has operands to test. -/
theorem exceptionPriority : Obligations.ExceptionPriority := by
  refine fun s v => ⟨fun hb a ha => ?_, fun hb illegal => ?_, fun hb i rest decoded hw => ?_⟩
  · rw [hostWrite_busy ha hb, raiseException_eq]
  · rw [hostWrite_at_op (locate_op rfl), writeOp_illegal hb illegal, raiseException_eq]
  · rw [hostWrite_at_op (locate_op rfl), writeOp_decodes decoded, exec_refuses_exc hb hw]

/-! What EXC does not change. -/

/-- A command begins alike whatever EXC holds. -/
theorem startOf_exc (i : Instr) (s : State) (e : Option Cause) :
    startOf i { s with exc := e } = { startOf i s with exc := e } := by
  cases i with
  | rregn a n => rw [startOf_rregn, startOf_rregn]; split <;> rfl
  | wregn a n => rw [startOf_wregn, startOf_wregn]; split <;> rfl
  | ant on => simp only [startOf]; split <;> rfl
  | _ => rfl

/-- A byte is stored alike whatever EXC holds. -/
theorem writeLoc_exc {l : HostLoc} {s : State} (hl : l.stores = true) (hb : s.busy = false) (v : Byte)
    (e : Option Cause) : writeLoc l v { s with exc := e } = { writeLoc l v s with exc := e } := by
  have hb' : ({ s with exc := e } : State).busy = false := hb
  cases l with
  | argA | argB | argC | txbuf | uid | cmpuid | key =>
    simp only [writeLoc, storeUnlessBusy_idle hb, storeUnlessBusy_idle hb']
  | op | status | code | pstate | rxlen | exc | rxbuf | crcres | reserved => cases hl

/-- A write to an input address other than OP goes to its location. -/
theorem hostWrite_input {a : Byte} (ha : isInputAddr a) (h0 : a.toNat ≠ 0x00) (v : Byte) (s : State) :
    hostWrite a v s = .next (writeLoc (locate a) v s) := by
  have stores := locate_stores a ha h0
  exact hostWrite_elsewhere (by intro e; rw [e] at stores; cases stores) v s

/-- Settles O13: acceptance and stores do not read EXC, and EXC has its own rule for a write and for a second cause. -/
theorem exceptionRecordBlocksNothing : Obligations.ExceptionRecordBlocksNothing := by
  refine fun s e => ⟨fun v => ?_, fun i hb hw => ?_, fun a v hb ha h0 => ?_, fun c recorded => ?_⟩
  · obtain ⟨-, clears, -⟩ := writesWhileBusyAreDropped s 0x08 v
    exact clears rfl
  · refine ⟨startOf i { s with op := i.opcode }, exec_accepts hb hw, ?_⟩
    rw [exec_accepts (s := { s with exc := e }) hb hw]
    exact congrArg Host.Outcome.next (startOf_exc i { s with op := i.opcode } e)
  · have stores := locate_stores a ha h0
    refine ⟨writeLoc (locate a) v s, hostWrite_input ha h0 v s, readLoc_writeLoc_same stores hb v, ?_⟩
    rw [hostWrite_input ha h0, writeLoc_exc stores hb]
  · rw [raiseException_eq, if_neg recorded]

end Sys2Proof.Machine

/-! The family 70_reset_and_hazards: what reset leaves (R281), the reset input (R280), and the invariant at reset. -/

namespace Sys2Proof.Machine

/-- Settles O18: the status registers read by the map of R63 (O14), and an idle sequencer stays where it is. -/
theorem resetValues : Obligations.ResetValues := by
  obtain ⟨-, -, -, -, -, status, code, pstate, rxlen, exc, -⟩ := hostReadsByTheMap State.reset
  exact ⟨rfl, rfl, rfl, rfl, status, code, pstate, rxlen, exc, rfl, busy_of_pos _ rfl, rfl, rfl,
    sequencerStep_idle rfl⟩

/-- Settles O19: the turn is the reset input, which sets every register whatever the position. -/
theorem resetInputAbandonsCommand : Obligations.ResetInputAbandonsCommand := by
  intro s turns hc hs
  have abandons : step s = .next (sequencerReset { s with schedule := turns }) := step_turn hc hs
  exact ⟨_, abandons, rfl, rfl, rfl, rfl, busy_of_pos _ rfl, rfl, rfl, rfl, rfl, rfl, rfl, rfl, rfl, rfl, rfl, rfl⟩

/-- Settles O21: RXLEN is 0, PSTATE is Idle, nothing has been driven and no command is at a position. -/
theorem resetHasInvariant : Obligations.ResetHasInvariant := by
  have rxlen : State.reset.rxlen ≤ 64 := Nat.zero_le 64
  have pstate : State.reset.pstate ≠ .halted := PState.noConfusion
  exact (inv_iff State.reset).2 ⟨rxlen, pstate, rfl, rfl⟩

end Sys2Proof.Machine
